-- ==== Sys2Proof/Word.lean ====
section
/-! DEFINITION. The word types of the IJ-440: bytes, codewords, index types and the index sets software sees as
words. A codeword's position p (R3) is bit p of its 72-bit word: data at bits 0 to 63, check at bits 64 to 71. -/

namespace Sys2Proof

/-- One byte of a link transaction, or one byte of line data. -/
abbrev Byte := BitVec 8

/-- A channel number, 0 to 3 (terms, "Channel"). -/
abbrev ChanId := Fin 4

/-- A spare slot number, 0 to 511 (R140). -/
abbrev SlotId := Fin 512

/-- A codeword index within a line, 0 to 7 (R3). -/
abbrev CwIndex := Fin 8

/-- A bit position within a codeword, 0 to 71 (R3). -/
abbrev BitPos := Fin 72

/-- The 64 data bits of one codeword. -/
abbrev Data := BitVec 64

/-- A stored codeword: 64 data bits with 8 check bits above them (R3). -/
abbrev Codeword := BitVec 72

/-- The eight codewords of one line, in index order (R3, R9). -/
abbrev LineWords := Vector Codeword 8

/-- The 64 data bytes of one line; byte b is bits 8b to 8b + 7 (R3, R78). -/
abbrev LineData := BitVec 512

/-- A set of codeword indices: bit i stands for codeword i, as the readout of R193 shows it. -/
abbrev CwSet := BitVec 8

/-- A set of alert causes: one bit per cause, numbered as R191 numbers them. -/
abbrev CauseSet := BitVec 12

end Sys2Proof
end

