-- ==== Sys2Proof/Syntax.lean ====
section
/-! DEFINITION. The commands of the IJ-440, one constructor per row of spec/opcode_table.json: the events on its
demand port, the operations of its Channel Arbiters, the completions of its DRAM reads, its timer and pin events,
and the transactions of its maintenance link.

A link row's operands are the transaction's argument fields, raw, as R192 places them; `extra` is how many bits were
clocked beyond 192 in the chip-select low period (R182). A decode row carries `upsets`, the bits in which what DRAM
returned differs from what the part's writes left there when the read was issued (log entry 3). -/

namespace Sys2Proof

/-- What a demand request asks for (R78). -/
inductive ReqKind where
  | read
  | write (data : LineData) (mask : BitVec 64)
  deriving DecidableEq, Repr

/-- One demand request packet, less the channel number that selects its queue (R78). -/
structure Request where
  tag  : Byte
  line : Nat
  kind : ReqKind
  deriving DecidableEq, Repr

inductive Instr where
  -- the demand port and the operations on one channel
  | requestArrival (ch : ChanId) (req : Request)
  | responseDeparture (ch : ChanId)
  | demandReadIssue (ch : ChanId)
  | demandWriteIssue (ch : ChanId)
  | mergeReadIssue (ch : ChanId)
  | mergeReadDecode (ch : ChanId) (upsets : LineWords)
  | mergeWriteIssue (ch : ChanId)
  | poisonWriteIssue (ch : ChanId)
  | writeBackIssue (ch : ChanId)
  | fillWriteIssue (ch : ChanId)
  | copyReadIssue (ch : ChanId)
  | copyReadDecode (ch : ChanId) (upsets : LineWords)
  | copyWriteIssue (ch : ChanId)
  | verifyReadIssue (ch : ChanId)
  | verifyReadDecode (ch : ChanId) (upsets : LineWords)
  | patrolIssueStep (ch : ChanId)
  | patrolReadDecode (ch : ChanId) (upsets : LineWords)
  | patrolReadFinish (ch : ChanId)
  | demandReadDecode (ch : ChanId) (upsets : LineWords)
  -- the cadence and the reset pin
  | slotEnd
  | beat
  | watchdogExpiry
  | resetAssert
  | resetEnd (csLow : Bool)
  -- link transactions that are not run
  | linkShort (bits : Nat)
  | linkCheckError (extra : Nat) (code : Byte)
  | unknown (extra : Nat) (code : Byte)
  -- the link's own commands and the settings
  | nop (extra : Nat)
  | status (extra : Nat) (page : Byte)
  | getSetting (extra : Nat) (id : Byte)
  | setSetting (extra : Nat) (id : Byte) (value : BitVec 32)
  | setPhysLines (extra : Nat) (ch : ChanId) (value : BitVec 32)
  | setCadenceSource (extra : Nat) (value : BitVec 32)
  | setCadenceTimeout (extra : Nat) (value : BitVec 32)
  | setFocusInterval (extra : Nat) (value : BitVec 32)
  | setAlertMask (extra : Nat) (value : BitVec 32)
  | softReset (extra : Nat)
  -- the record commands
  | lookup (extra : Nat) (ch : Byte) (line : BitVec 32)
  | next (extra : Nat) (flag : Byte) (ch : Byte) (line : BitVec 32) (filter : Byte)
  | adopt (extra : Nat) (ch : Byte) (line : BitVec 32) (state : Byte) (slot : BitVec 16)
  | pin (extra : Nat) (ch : Byte) (line : BitVec 32)
  | unpin (extra : Nat) (ch : Byte) (line : BitVec 32)
  | retire (extra : Nat) (ch : Byte) (line : BitVec 32)
  | release (extra : Nat) (ch : Byte) (line : BitVec 32)
  | clearHold (extra : Nat) (ch : Byte) (line : BitVec 32)
  -- sparing
  | spare (extra : Nat) (ch : Byte) (line : BitVec 32)
  | cancel (extra : Nat) (ch : Byte) (line : BitVec 32)
  | spareQuery (extra : Nat) (ch : Byte)
  | spareSlot (extra : Nat) (ch : Byte) (slot : BitVec 16)
  | spareRestore (extra : Nat) (ch : Byte) (slot : BitVec 16)
  -- the region map
  | regionSet (extra : Nat) (index enabled chans : Byte) (first last : BitVec 32) (cls : Byte)
  | regionGet (extra : Nat) (index : Byte)
  | classSet (extra : Nat) (cls : Byte) (tHot tSpare : BitVec 16) (autoSpare demandWb : Byte)
  | classGet (extra : Nat) (cls : Byte)
  -- channels and patrol
  | channelFill (extra : Nat) (ch : Byte)
  | channelOnline (extra : Nat) (ch : Byte)
  | channelOffline (extra : Nat) (ch : Byte)
  | patrolStart (extra : Nat) (ch mode flag : Byte) (start : BitVec 32)
  | patrolHalt (extra : Nat) (ch : Byte)
  -- phases
  | setPhase (extra : Nat) (phase : Byte)
  | profileSet (extra : Nat) (phase : Byte) (mask : BitVec 32) (ops : Byte)
  | profileGet (extra : Nat) (phase : Byte)
  -- capture and alert
  | captureRead (extra : Nat) (ch : Byte)
  | captureClear (extra : Nat) (ch : Byte)
  | countsRead (extra : Nat) (ch : Byte)
  | countsClear (extra : Nat) (ch : Byte)
  | alertRead (extra : Nat)
  | alertAck (extra : Nat) (causes : BitVec 16)
  deriving DecidableEq, Repr

end Sys2Proof
end

