-- ==== Sys2Proof/WellFormed.lean ====
section
/-! DEFINITION. Which commands stand for a row of the table: the side conditions that a row's own words put on its
operands. -/

namespace Sys2Proof

/-- The command codes that R192's command table assigns. -/
def assignedCodes : List Byte :=
  [0x00, 0x01, 0x02, 0x03, 0x0F, 0x10, 0x11, 0x12, 0x13, 0x14, 0x15, 0x16, 0x17] ++
  [0x20, 0x21, 0x22, 0x23, 0x24, 0x30, 0x31, 0x32, 0x33] ++
  [0x40, 0x41, 0x42, 0x43, 0x44, 0x50, 0x51, 0x52, 0x60, 0x61, 0x62, 0x63, 0x64, 0x65]

/-- The setting identifiers whose SET_SETTING the table lists as a row of its own. -/
def ownRowSettings : List Byte := [0x00, 0x01, 0x02, 0x03, 0x18, 0x20, 0x23, 0x30]

/-- A short transaction has fewer than 192 bits (R182); UNKNOWN is for an unassigned code (R185); SET_SETTING is the
row of the settings "that have no behaviour of their own". Every other operand is admitted: an argument out of range
is refused by the part itself. -/
def Instr.wellFormed : Instr → Bool
  | .linkShort bits        => bits < 192
  | .unknown _ code        => !assignedCodes.contains code
  | .setSetting _ id _     => !ownRowSettings.contains id
  | .requestArrival _ _    => true
  | .responseDeparture _   => true
  | .demandReadIssue _     => true
  | .demandWriteIssue _    => true
  | .mergeReadIssue _      => true
  | .mergeReadDecode _ _   => true
  | .mergeWriteIssue _     => true
  | .poisonWriteIssue _    => true
  | .writeBackIssue _      => true
  | .fillWriteIssue _      => true
  | .copyReadIssue _       => true
  | .copyReadDecode _ _    => true
  | .copyWriteIssue _      => true
  | .verifyReadIssue _     => true
  | .verifyReadDecode _ _  => true
  | .patrolIssueStep _     => true
  | .patrolReadDecode _ _  => true
  | .patrolReadFinish _    => true
  | .demandReadDecode _ _  => true
  | .slotEnd               => true
  | .beat                  => true
  | .watchdogExpiry        => true
  | .resetAssert           => true
  | .resetEnd _            => true
  | .linkCheckError _ _    => true
  | .nop _                 => true
  | .status _ _            => true
  | .getSetting _ _        => true
  | .setPhysLines _ _ _    => true
  | .setCadenceSource _ _  => true
  | .setCadenceTimeout _ _ => true
  | .setFocusInterval _ _  => true
  | .setAlertMask _ _      => true
  | .softReset _           => true
  | .lookup _ _ _          => true
  | .next _ _ _ _ _        => true
  | .adopt _ _ _ _ _       => true
  | .pin _ _ _             => true
  | .unpin _ _ _           => true
  | .retire _ _ _          => true
  | .release _ _ _         => true
  | .clearHold _ _ _       => true
  | .spare _ _ _           => true
  | .cancel _ _ _          => true
  | .spareQuery _ _        => true
  | .spareSlot _ _ _       => true
  | .spareRestore _ _ _    => true
  | .regionSet _ _ _ _ _ _ _ => true
  | .regionGet _ _         => true
  | .classSet _ _ _ _ _ _  => true
  | .classGet _ _          => true
  | .channelFill _ _       => true
  | .channelOnline _ _     => true
  | .channelOffline _ _    => true
  | .patrolStart _ _ _ _ _ => true
  | .patrolHalt _ _        => true
  | .setPhase _ _          => true
  | .profileSet _ _ _ _    => true
  | .profileGet _ _        => true
  | .captureRead _ _       => true
  | .captureClear _ _      => true
  | .countsRead _ _        => true
  | .countsClear _ _       => true
  | .alertRead _           => true
  | .alertAck _ _          => true

end Sys2Proof
end

