-- ==== Sys2Proof/Decode.lean ====
section
/-! DEFINITION. The transactions of the maintenance link as bits: the check byte (R183), the 24 bytes of a transaction
(R181, R182, R189), the command that a transaction carries (R192), and the transaction that carries a command.
Sys2Proof.decodeTableWord answers none: spec/opcode_table.json gives no row any bits (log entry 16). -/

namespace Sys2Proof

/-! ### The check byte (R183) -/

/-- One bit of the CRC-8: polynomial x^8 + x^5 + x^4 + 1, most significant bit first. -/
def crcBit (c : Byte) (b : Bool) : Byte := if c.msb ^^ b then (c <<< 1) ^^^ 0x31 else c <<< 1

/-- The check byte over 23 bytes, byte 0 the most significant. -/
def checkByte (body : BitVec 184) : Byte := (List.range 184).foldl (fun c i => crcBit c (body.getMsbD i)) 0

/-! ### The 24 bytes of a transaction (R181, R182) -/

/-- Twenty-four bytes, byte 0 the most significant, as they are clocked. -/
abbrev Frame := BitVec 192

/-- Byte n of a frame. -/
def Frame.byte (f : Frame) (n : Nat) : Byte := f.extractLsb' (8 * (23 - n)) 8

/-- Bytes n to n + 1 of a frame, most significant first. -/
def Frame.half (f : Frame) (n : Nat) : BitVec 16 := f.extractLsb' (8 * (22 - n)) 16

/-- Bytes n to n + 3 of a frame, most significant first. -/
def Frame.quad (f : Frame) (n : Nat) : BitVec 32 := f.extractLsb' (8 * (20 - n)) 32

/-- Bytes 0 to 22 of a frame. -/
def Frame.body (f : Frame) : BitVec 184 := f.extractLsb' 8 184

/-- A frame whose last byte is its check byte. -/
def Frame.withCheck (body : BitVec 184) : Frame := body ++ checkByte body

/-- Whether a frame's check byte is right (R183). -/
def Frame.good (f : Frame) : Bool := f.byte 23 == checkByte (Frame.body f)

/-- The last 192 bits clocked (R182). -/
def lastFrame (bits : List Bool) : Frame := bits.foldl (fun f b => f.shiftConcat b) 0

/-- The bits of a frame as they are clocked. -/
def Frame.bits (f : Frame) : List Bool := (List.range 192).map (fun i => f.getMsbD i)

/-! ### The command of a transaction (R192) -/

/-- The settings that have a row of their own, or SET_SETTING. -/
def decodeSetting (extra : Nat) (id : Byte) (value : BitVec 32) : Instr :=
  match id.toNat with
  | 0x00 => .setPhysLines extra 0 value
  | 0x01 => .setPhysLines extra 1 value
  | 0x02 => .setPhysLines extra 2 value
  | 0x03 => .setPhysLines extra 3 value
  | 0x18 => .setFocusInterval extra value
  | 0x20 => .setCadenceSource extra value
  | 0x23 => .setCadenceTimeout extra value
  | 0x30 => .setAlertMask extra value
  | _    => .setSetting extra id value

/-- The command of a good transaction (R185, R192). -/
def decodeCommand (extra : Nat) (f : Frame) : Instr :=
  match (Frame.byte f 0).toNat with
  | 0x00 => .nop extra
  | 0x01 => .status extra (Frame.byte f 1)
  | 0x02 => .getSetting extra (Frame.byte f 1)
  | 0x03 => decodeSetting extra (Frame.byte f 1) (Frame.quad f 2)
  | 0x0F => .softReset extra
  | 0x10 => .lookup extra (Frame.byte f 1) (Frame.quad f 2)
  | 0x11 => .next extra (Frame.byte f 1) (Frame.byte f 2) (Frame.quad f 3) (Frame.byte f 7)
  | 0x12 => .adopt extra (Frame.byte f 1) (Frame.quad f 2) (Frame.byte f 6) (Frame.half f 7)
  | 0x13 => .pin extra (Frame.byte f 1) (Frame.quad f 2)
  | 0x14 => .unpin extra (Frame.byte f 1) (Frame.quad f 2)
  | 0x15 => .retire extra (Frame.byte f 1) (Frame.quad f 2)
  | 0x16 => .release extra (Frame.byte f 1) (Frame.quad f 2)
  | 0x17 => .clearHold extra (Frame.byte f 1) (Frame.quad f 2)
  | 0x20 => .spare extra (Frame.byte f 1) (Frame.quad f 2)
  | 0x21 => .cancel extra (Frame.byte f 1) (Frame.quad f 2)
  | 0x22 => .spareQuery extra (Frame.byte f 1)
  | 0x23 => .spareSlot extra (Frame.byte f 1) (Frame.half f 2)
  | 0x24 => .spareRestore extra (Frame.byte f 1) (Frame.half f 2)
  | 0x30 => .regionSet extra (Frame.byte f 1) (Frame.byte f 2) (Frame.byte f 3) (Frame.quad f 4) (Frame.quad f 8)
              (Frame.byte f 12)
  | 0x31 => .regionGet extra (Frame.byte f 1)
  | 0x32 => .classSet extra (Frame.byte f 1) (Frame.half f 2) (Frame.half f 4) (Frame.byte f 6) (Frame.byte f 7)
  | 0x33 => .classGet extra (Frame.byte f 1)
  | 0x40 => .channelFill extra (Frame.byte f 1)
  | 0x41 => .channelOnline extra (Frame.byte f 1)
  | 0x42 => .channelOffline extra (Frame.byte f 1)
  | 0x43 => .patrolStart extra (Frame.byte f 1) (Frame.byte f 2) (Frame.byte f 3) (Frame.quad f 4)
  | 0x44 => .patrolHalt extra (Frame.byte f 1)
  | 0x50 => .setPhase extra (Frame.byte f 1)
  | 0x51 => .profileSet extra (Frame.byte f 1) (Frame.quad f 2) (Frame.byte f 6)
  | 0x52 => .profileGet extra (Frame.byte f 1)
  | 0x60 => .captureRead extra (Frame.byte f 1)
  | 0x61 => .captureClear extra (Frame.byte f 1)
  | 0x62 => .countsRead extra (Frame.byte f 1)
  | 0x63 => .countsClear extra (Frame.byte f 1)
  | 0x64 => .alertRead extra
  | 0x65 => .alertAck extra (Frame.half f 1)
  | _    => .unknown extra (Frame.byte f 0)

/-- A transaction of 192 bits or more (R182, R183). -/
def decodeFrame (extra : Nat) (f : Frame) : Instr :=
  if Frame.good f then decodeCommand extra f else .linkCheckError extra (Frame.byte f 0)

/-- The command that a chip-select low period carries, from its bits in the order they were clocked (R181 to R183). -/
def decodeTransaction (bits : List Bool) : Instr :=
  if bits.length < 192 then .linkShort bits.length else decodeFrame (bits.length - 192) (lastFrame bits)

/-! ### The transaction of a command (R189, R192) -/

/-- A body of a code and no argument. -/
def body0 (code : Byte) : BitVec 184 := code ++ 0#176

/-- A body of a code and one byte. -/
def body1 (code a : Byte) : BitVec 184 := code ++ (a ++ 0#168)

/-- A body of a code, one byte and a line or value. -/
def body5 (code a : Byte) (v : BitVec 32) : BitVec 184 := code ++ (a ++ (v ++ 0#136))

/-- A body of a code, one byte and a spare slot. -/
def body3 (code a : Byte) (v : BitVec 16) : BitVec 184 := code ++ (a ++ (v ++ 0#152))

/-- Bytes 0 to 22 of the transaction that carries a command, bytes that the command does not use zero; none for what is
no good transaction. -/
def Instr.body? : Instr → Option (BitVec 184)
  | .nop _ => some (body0 0x00)
  | .status _ page => some (body1 0x01 page)
  | .getSetting _ id => some (body1 0x02 id)
  | .setSetting _ id v => some (body5 0x03 id v)
  | .setPhysLines _ ch v => some (body5 0x03 (BitVec.ofNat 8 ch.val) v)
  | .setCadenceSource _ v => some (body5 0x03 0x20 v)
  | .setCadenceTimeout _ v => some (body5 0x03 0x23 v)
  | .setFocusInterval _ v => some (body5 0x03 0x18 v)
  | .setAlertMask _ v => some (body5 0x03 0x30 v)
  | .softReset _ => some (body0 0x0F)
  | .lookup _ ch line => some (body5 0x10 ch line)
  | .next _ flag ch line filter => some (0x11#8 ++ (flag ++ (ch ++ (line ++ (filter ++ 0#120)))))
  | .adopt _ ch line st slot => some (0x12#8 ++ (ch ++ (line ++ (st ++ (slot ++ 0#112)))))
  | .pin _ ch line => some (body5 0x13 ch line)
  | .unpin _ ch line => some (body5 0x14 ch line)
  | .retire _ ch line => some (body5 0x15 ch line)
  | .release _ ch line => some (body5 0x16 ch line)
  | .clearHold _ ch line => some (body5 0x17 ch line)
  | .spare _ ch line => some (body5 0x20 ch line)
  | .cancel _ ch line => some (body5 0x21 ch line)
  | .spareQuery _ ch => some (body1 0x22 ch)
  | .spareSlot _ ch slot => some (body3 0x23 ch slot)
  | .spareRestore _ ch slot => some (body3 0x24 ch slot)
  | .regionSet _ i en chans first last cls =>
      some (0x30#8 ++ (i ++ (en ++ (chans ++ (first ++ (last ++ (cls ++ 0#80)))))))
  | .regionGet _ i => some (body1 0x31 i)
  | .classSet _ cls tHot tSpare auto wb =>
      some (0x32#8 ++ (cls ++ (tHot ++ (tSpare ++ (auto ++ (wb ++ 0#120))))))
  | .classGet _ cls => some (body1 0x33 cls)
  | .channelFill _ ch => some (body1 0x40 ch)
  | .channelOnline _ ch => some (body1 0x41 ch)
  | .channelOffline _ ch => some (body1 0x42 ch)
  | .patrolStart _ ch mode flag start => some (0x43#8 ++ (ch ++ (mode ++ (flag ++ (start ++ 0#120)))))
  | .patrolHalt _ ch => some (body1 0x44 ch)
  | .setPhase _ p => some (body1 0x50 p)
  | .profileSet _ p mask ops => some (0x51#8 ++ (p ++ (mask ++ (ops ++ 0#128))))
  | .profileGet _ p => some (body1 0x52 p)
  | .captureRead _ ch => some (body1 0x60 ch)
  | .captureClear _ ch => some (body1 0x61 ch)
  | .countsRead _ ch => some (body1 0x62 ch)
  | .countsClear _ ch => some (body1 0x63 ch)
  | .alertRead _ => some (body0 0x64)
  | .alertAck _ causes => some (0x65#8 ++ (causes ++ 0#160))
  | .unknown _ code => some (body0 code)
  | .requestArrival _ _ | .responseDeparture _ | .demandReadIssue _ | .demandWriteIssue _ | .mergeReadIssue _
  | .mergeReadDecode _ _ | .mergeWriteIssue _ | .poisonWriteIssue _ | .writeBackIssue _ | .fillWriteIssue _
  | .copyReadIssue _ | .copyReadDecode _ _ | .copyWriteIssue _ | .verifyReadIssue _ | .verifyReadDecode _ _
  | .patrolIssueStep _ | .patrolReadDecode _ _ | .patrolReadFinish _ | .demandReadDecode _ _ | .slotEnd | .beat
  | .watchdogExpiry | .resetAssert | .resetEnd _ | .linkShort _ | .linkCheckError _ _ => none

/-- How many bits were clocked beyond 192 in the transaction of a command. -/
def Instr.extra : Instr → Nat
  | .linkCheckError e _ | .unknown e _ | .nop e | .status e _ | .getSetting e _ | .setSetting e _ _
  | .setPhysLines e _ _ | .setCadenceSource e _ | .setCadenceTimeout e _ | .setFocusInterval e _
  | .setAlertMask e _ | .softReset e | .lookup e _ _ | .next e _ _ _ _ | .adopt e _ _ _ _ | .pin e _ _
  | .unpin e _ _ | .retire e _ _ | .release e _ _ | .clearHold e _ _ | .spare e _ _ | .cancel e _ _
  | .spareQuery e _ | .spareSlot e _ _ | .spareRestore e _ _ | .regionSet e _ _ _ _ _ _ | .regionGet e _
  | .classSet e _ _ _ _ _ | .classGet e _ | .channelFill e _ | .channelOnline e _ | .channelOffline e _
  | .patrolStart e _ _ _ _ | .patrolHalt e _ | .setPhase e _ | .profileSet e _ _ _ | .profileGet e _
  | .captureRead e _ | .captureClear e _ | .countsRead e _ | .countsClear e _ | .alertRead e | .alertAck e _ => e
  | .requestArrival _ _ | .responseDeparture _ | .demandReadIssue _ | .demandWriteIssue _ | .mergeReadIssue _
  | .mergeReadDecode _ _ | .mergeWriteIssue _ | .poisonWriteIssue _ | .writeBackIssue _ | .fillWriteIssue _
  | .copyReadIssue _ | .copyReadDecode _ _ | .copyWriteIssue _ | .verifyReadIssue _ | .verifyReadDecode _ _
  | .patrolIssueStep _ | .patrolReadDecode _ _ | .patrolReadFinish _ | .demandReadDecode _ _ | .slotEnd | .beat
  | .watchdogExpiry | .resetAssert | .resetEnd _ | .linkShort _ => 0

/-- The bits of the transaction of a command, after bits that the link discards. -/
def Instr.transaction? (i : Instr) (before : List Bool) : Option (List Bool) :=
  i.body?.map (fun b => before ++ (Frame.withCheck b).bits)

/-! ### The opcode table -/

/-- The command that a word spells by the table's bits: none, since no row of spec/opcode_table.json has bits. -/
def decodeTableWord (_nbits _w : Nat) : Option Instr := none

end Sys2Proof
end

