-- ==== Sys2Proof/Config.lean ====
section
/-! DEFINITION. What the manual leaves open: free values with no body, so that no proof can see what they are. -/

namespace Sys2Proof

/-- FREE VALUE (log entry 2). What DRAM holds at a codeword that no write has reached since power-up; the manual
says such a codeword "decodes like any other" (R6) and "can give any outcome" (R76). The arguments are the channel
and the codeword's address in that channel's DRAM. -/
opaque Config.dramPowerUp : ChanId → Nat → Codeword

/-- FREE VALUE (log entry 6). Whether, when the end of the open slot and the expiry of the watchdog fall on one
moment, the expiry is taken first; the manual gives no order. The argument is that moment. -/
opaque Config.expiryFirst : Nat → Bool

/-- FREE VALUE (log entry 9). What SDO carries during the chip-select low period that was already in progress when
the power-on reset ended; R187 says only that the period is no transaction. The argument is the moment it ends. -/
opaque Config.sdoInIgnoredPeriod : Nat → List Bool

end Sys2Proof
end

