-- ==== Sys2Proof/Machine/State.lean ====
section
/-! DEFINITION. The state of the IJ-440 as plain data, every block's items under the names the manual gives them, the
reasons a command can stop, and the state after the power-on reset. Fields marked MODEL are the model's own. -/

namespace Sys2Proof.Machine

/-- Who stops with a fault: an operation of a Channel Arbiter whose line lies outside the channel's physical lines
(R73, R140). Safe: the manual gives no such line (log entry 7). -/
inductive Fault where
  | noSuchLine
  deriving DecidableEq, Repr

/-- Who refuses: exec itself, for a command with no meaning yet (none is left). Safe: nothing is claimed of it. -/
inductive Refusal where
  | notModelled (mnemonic : String)
  deriving DecidableEq, Repr

/-! ### Names -/

/-- The channel states (R72). -/
inductive ChannelState where
  | disabled | initializing | online
  deriving DecidableEq, Repr

/-- The record states (R15). -/
inductive RecState where
  | watch | hot | sparing | spared | retired
  deriving DecidableEq, Repr

/-- The state a migration in flight returns to if it does not commit (R15). -/
inductive PriorState where
  | hot | spared
  deriving DecidableEq, Repr

/-- What created a record (R15). -/
inductive Origin where
  | demand | patrol | migration | host
  deriving DecidableEq, Repr

/-- The source named by a delivery and by a capture (R22, R167). -/
inductive ReadSource where
  | demandRead | demandMerge | patrol | focus | migration
  deriving DecidableEq, Repr

/-- The memory classes (R61). -/
inductive MemClass where
  | critical | standard | bulk | unscrubbed
  deriving DecidableEq, Repr

/-- The market phases (R124). -/
inductive Phase where
  | closed | preopen | auction | continuous
  deriving DecidableEq, Repr

/-- Where frames come from (R124). -/
inductive CadSource where
  | internal | external
  deriving DecidableEq, Repr

/-- The patrol modes (R99). -/
inductive PatrolMode where
  | single | continuous
  deriving DecidableEq, Repr

/-- The states of a Patrol Engine (R100). -/
inductive PatrolState where
  | idle | running | halting | done
  deriving DecidableEq, Repr

/-- The spare slot states (R140). -/
inductive SlotState where
  | free | allocated | defective
  deriving DecidableEq, Repr

/-- The twelve alert causes, in the order of R191's bits. -/
inductive Cause where
  | ue | ueCritical | poisonRead | spareExhausted | tableFull | migrationDone
  | migrationFailed | passDone | channelReady | cadenceLost | linkFault | protocol
  deriving DecidableEq, Repr

/-- The results of R188, in the order of their codes. -/
inductive Result where
  | ok | accepted | clamped | busy | notReady | range | state
  | notFound | exists | full | noSpare | unknown | checkError | short
  deriving DecidableEq, Repr

/-- A location: the physical place where an access is served, a visible line or a spare slot of the channel. -/
inductive Loc where
  | line (n : Nat)
  | slot (s : SlotId)
  deriving DecidableEq, Repr

/-! ### The Defect Record Table and the Region Map -/

/-- A record key: channel and visible line. -/
structure Key where
  channel : ChanId
  line    : Nat
  deriving DecidableEq, Repr

/-- A defect record (R15). -/
structure Record where
  key         : Key
  state       : RecState
  score       : Nat
  lastBit     : Option BitPos
  rep         : Nat
  age         : Nat
  poison      : CwSet
  spareSlot   : Option SlotId
  targetSlot  : Option SlotId
  priorState  : Option PriorState
  pinned      : Bool
  hold        : Bool
  spareWanted : Bool
  origin      : Origin
  deriving DecidableEq, Repr

/-- A window of the Region Map (R61); bit c of `channels` stands for channel c. -/
structure Window where
  enabled  : Bool
  channels : BitVec 4
  first    : Nat
  last     : Nat
  cls      : MemClass
  deriving DecidableEq, Repr

/-- The four changeable items of a class policy (R63). -/
structure Policy where
  tHot      : Nat
  tSpare    : Nat
  autoSpare : Bool
  demandWb  : Bool
  deriving DecidableEq, Repr

/-! ### The demand path -/

/-- Why a request is refused (R79). -/
inductive RefuseReason where
  | notReady | address
  deriving DecidableEq, Repr

/-- The outcome in READ_DATA (R82). -/
inductive ReadOutcome where
  | clean | corrected | poison
  deriving DecidableEq, Repr

/-- The outcome in WRITE_DONE (R86, R89). -/
inductive WriteOutcome where
  | done | doneCorrected | poisonKept
  deriving DecidableEq, Repr

/-- The redirection answer a demand request keeps (R20, R21): the location, whether the record was SPARING, the target
slot if the copy write had been issued; and of that moment the migration's retry count (MODEL, to tell a later retry, log
entry 13) and the consecutive-demand count (MODEL, to tell the write of a merge read issued at count 7, R97). -/
structure Probe where
  loc     : Loc
  sparing : Bool
  second  : Option SlotId
  retry   : Nat
  count   : Nat
  deriving DecidableEq, Repr

/-- What a write does to one codeword: leaves it, writes a codeword, or writes the poison marker (R86, R88). -/
inductive CwWrite where
  | keep
  | word (w : Codeword)
  | marker
  deriving DecidableEq, Repr

/-- How far a request has come. -/
inductive Stage where
  /-- marked REFUSED by the arrival checks (R79) -/
  | refused (reason : RefuseReason)
  /-- not yet taken for issue -/
  | waiting
  /-- a demand read issued, its decode awaited (R81) -/
  | readIssued
  /-- a demand read decoded: its READ_DATA contents (R82) -/
  | readDone (outcome : ReadOutcome) (data : LineData) (mask : CwSet)
  /-- the merge read issued, its decode awaited (R87) -/
  | mergeIssued (probe : Probe)
  /-- the merge read decoded: what its write will write, and the write's outcome (R88, R89) -/
  | mergeDecoded (probe : Probe) (plan : Vector CwWrite 8) (outcome : WriteOutcome)
  /-- the write issued (R86, R88) -/
  | written (outcome : WriteOutcome)
  deriving DecidableEq, Repr

/-- A place of a channel's demand queue. `seq` (MODEL) numbers the channel's requests in arrival order, because tags
need not be unique (R78). -/
structure QEntry where
  seq   : Nat
  req   : Request
  stage : Stage
  deriving DecidableEq, Repr

/-- A response as it left on the demand port (R80). -/
inductive DemandResponse where
  | refused (tag : Byte) (reason : RefuseReason)
  | readData (tag : Byte) (outcome : ReadOutcome) (data : LineData) (mask : CwSet)
  | writeDone (tag : Byte) (outcome : WriteOutcome)
  deriving DecidableEq, Repr

/-- Whose read an owed poison write follows (R84). -/
inductive OwedBy where
  | demand (seq : Nat)
  | patrol
  | migration
  deriving DecidableEq, Repr

/-- An owed poison write (R84): the key line and location of the owing read, and the codewords it covers. -/
structure Owed where
  line  : Nat
  loc   : Loc
  cws   : CwSet
  owner : OwedBy
  deriving DecidableEq, Repr

/-- The reads an arbiter issues. `late` says that the read's migration has ended (R163). -/
inductive FlightKind where
  | demand (seq : Nat)
  | merge (seq : Nat)
  | patrol
  | copy (late : Bool)
  | verify (late : Bool)
  deriving DecidableEq, Repr

/-- A read in flight. `words` is what the part's writes had left at the location when the read was issued (DRAM completes
a channel's operations in issue order, R80); `moved` says that the slot it reads has changed state since (R142). -/
structure Flight where
  kind  : FlightKind
  line  : Nat
  loc   : Loc
  words : LineWords
  moved : Bool
  deriving DecidableEq, Repr

/-- An entry of a Write-back Queue, and an offer of one (R91). -/
structure WbEntry where
  loc     : Loc
  cw      : CwIndex
  content : Codeword
  deriving DecidableEq, Repr

/-! ### The Patrol Engine and the Migration Unit -/

/-- The kinds of patrol read (R99). -/
inductive PatrolKind where
  | ordinary | focus
  deriving DecidableEq, Repr

/-- The current read of a Patrol Engine (R99). `decoded` is no while the read is in flight (R107); `acrossReset` is set by
a SOFT_RESET that finds it unfinished (R104). -/
structure PatrolRead where
  kind        : PatrolKind
  line        : Nat
  loc         : Loc
  marks       : CwSet
  decoded     : Bool
  acrossReset : Bool
  deriving DecidableEq, Repr

/-- A Patrol Engine (R99). -/
structure PatrolEngine where
  state       : PatrolState
  mode        : PatrolMode
  position    : Nat
  pass        : Nat
  focusCursor : Option Nat
  focusCount  : Nat
  current     : Option PatrolRead
  held        : List WbEntry
  startWait   : Bool
  deriving DecidableEq, Repr

/-- The step a migration stands at (R146). -/
inductive MigPhase where
  | copyRead | copyWrite | verifyRead
  deriving DecidableEq, Repr

/-- What a held copy entry holds (R152). -/
inductive HeldContent where
  | unread
  | data (d : Data)
  | poison
  deriving DecidableEq, Repr

/-- An entry of the held copy (R152). -/
structure HeldEntry where
  content  : HeldContent
  overlaid : Bool
  deriving DecidableEq, Repr

/-- The migration of a busy Migration Unit (R146); the unit is idle when it holds none. The key's channel is the unit's. -/
structure Migration where
  line        : Nat
  target      : SlotId
  source      : Loc
  phase       : MigPhase
  inFlight    : Bool
  copyWritten : Bool
  retry       : Nat
  held        : Option (Vector HeldEntry 8)
  expected    : CwSet
  deriving DecidableEq, Repr

/-! ### Capture, channels, the Cadence Unit and the link -/

/-- CE or UE (R167). -/
inductive ErrKind where
  | ce | ue
  deriving DecidableEq, Repr

/-- A holding capture record (R167). -/
structure Capture where
  outcome  : ErrKind
  source   : ReadSource
  line     : Nat
  codeword : CwIndex
  bit      : Option BitPos
  syndrome : Byte
  tag      : Option Byte
  cls      : MemClass
  slot     : Option SlotId
  deriving DecidableEq, Repr

/-- Everything the part keeps per channel. `dram` is what the part's writes have left in the channel's DRAM: pairs of a
codeword address (8 × physical line + codeword index) and its content, addresses strictly rising. `response` is the last
response that left on the demand port for the channel. `nextSeq` is MODEL. -/
structure Channel where
  state        : ChannelState
  physLines    : Nat
  fillProgress : Nat
  credits      : Nat
  queue        : List QEntry
  nextSeq      : Nat
  response     : Option DemandResponse
  owed         : List Owed
  flights      : List Flight
  wbq          : List WbEntry
  demandCount  : Nat
  budget       : Nat
  patrol       : PatrolEngine
  slots        : Vector SlotState 512
  migration    : Option Migration
  exhausted    : Bool
  capture      : Option Capture
  ceCount      : Nat
  ueCount      : Nat
  dram         : List (Nat × Codeword)
  deriving DecidableEq, Repr

/-- A phase profile (R133); bit s of `mask` is slot s, 1 open. -/
structure Profile where
  mask : BitVec 32
  ops  : Nat
  deriving DecidableEq, Repr

/-- The device-wide settings (R194). PHYS_LINES stands in its channel. -/
structure Settings where
  wCe            : Nat
  wRepeat        : Nat
  decayShift     : Nat
  focusInterval  : Nat
  cadenceSource  : CadSource
  slotLen        : Nat
  slotCount      : Nat
  cadenceTimeout : Nat
  yieldLevel     : Nat
  alertMask      : CauseSet
  linkErrorLimit : Nat
  deriving DecidableEq, Repr

/-- The Cadence Unit (R124); moments are in microseconds. -/
structure Cadence where
  activeSource : CadSource
  frameSlots   : Nat
  slotIndex    : Option Nat
  slotEnd      : Option Nat
  activePhase  : Phase
  pendingPhase : Option Phase
  watchdogRef  : Option Nat
  deriving DecidableEq, Repr

/-- A response of the maintenance link (R189), less its check byte, which is the CRC of the rest (R190). Payload byte 0
is the most significant byte. -/
structure Response where
  code    : Byte
  result  : Result
  summary : Byte
  payload : BitVec 160
  deriving DecidableEq, Repr

/-- The link's shift state between the model's steps: empty, or inside a chip-select low period that was in progress
when the power-on reset ended and is no transaction (R187). -/
inductive Shift where
  | empty | ignoring
  deriving DecidableEq, Repr

/-- The state of the part. `now` (MODEL) is the present moment in microseconds; `resetAsserted` is the RESET pin; `sdo` is
the bits driven on SDO in the last chip-select low period; `pending` is the queue of commands that wait. -/
structure State where
  table         : List Record
  windows       : Vector Window 8
  policies      : Vector Policy 4
  settings      : Settings
  chans         : Vector Channel 4
  cadence       : Cadence
  profiles      : Vector Profile 4
  causes        : CauseSet
  response      : Response
  linkErrors    : Nat
  shift         : Shift
  sdo           : List Bool
  resetAsserted : Bool
  now           : Nat
  pending       : List Instr
  deriving DecidableEq, Repr

/-! ### The power-on reset -/

/-- A Patrol Engine after the power-on reset (R99). -/
def PatrolEngine.powerOn : PatrolEngine :=
  { state := .idle, mode := .continuous, position := 0, pass := 0, focusCursor := none, focusCount := 0
    current := none, held := [], startWait := false }

/-- A channel after the power-on reset (R72, R78, R91, R95, R140, R146, R167, R172); DRAM is not touched (R201). -/
def Channel.powerOn (dram : List (Nat × Codeword)) (budget : Nat) : Channel :=
  { state := .disabled, physLines := 0, fillProgress := 0, credits := 32, queue := [], nextSeq := 0
    response := none, owed := [], flights := [], wbq := [], demandCount := 0, budget := budget
    patrol := PatrolEngine.powerOn, slots := Vector.replicate 512 .free, migration := none
    exhausted := false, capture := none, ceCount := 0, ueCount := 0, dram := dram }

/-- The settings' power-on values (R194). -/
def Settings.powerOn : Settings :=
  { wCe := 16, wRepeat := 48, decayShift := 3, focusInterval := 8, cadenceSource := .internal, slotLen := 100
    slotCount := 8, cadenceTimeout := 10000, yieldLevel := 24, alertMask := 0x0A0, linkErrorLimit := 4 }

/-- A window after the power-on reset (R61). -/
def Window.powerOn : Window :=
  { enabled := false, channels := 0, first := 0, last := 0, cls := .standard }

/-- The pending response after the power-on reset (R184). -/
def Response.powerOn : Response :=
  { code := 0, result := .ok, summary := 0, payload := 0 }

/-- The part right after the power-on reset has ended at the moment `now`: every item at the value its chapter gives, the
first internal frame begun and slot 0 open with the CLOSED profile's budget (R124, R134). -/
def State.powerOn (drams : Vector (List (Nat × Codeword)) 4) (now : Nat) (pending : List Instr) : State :=
  { table := []
    windows := Vector.replicate 8 Window.powerOn
    policies :=
      #v[{ tHot := 48, tSpare := 160, autoSpare := true, demandWb := true },
         { tHot := 64, tSpare := 256, autoSpare := true, demandWb := true },
         { tHot := 96, tSpare := 384, autoSpare := false, demandWb := true },
         { tHot := 96, tSpare := 384, autoSpare := false, demandWb := false }]
    settings := Settings.powerOn
    chans := drams.map (fun d => Channel.powerOn d 8)
    cadence :=
      { activeSource := .internal, frameSlots := 8, slotIndex := some 0, slotEnd := some (now + 100)
        activePhase := .closed, pendingPhase := none, watchdogRef := none }
    profiles :=
      #v[{ mask := 0xFFFFFFFF, ops := 8 }, { mask := 0xFFFFFFFF, ops := 4 },
         { mask := 0, ops := 0 }, { mask := 0x000000F0, ops := 2 }]
    causes := 0
    response := Response.powerOn
    linkErrors := 0
    shift := .empty
    sdo := []
    resetAsserted := false
    now := now
    pending := pending }

/-- The machine right after reset: the state above, with nothing yet written to DRAM and no command waiting. -/
def State.reset : State :=
  State.powerOn (Vector.replicate 4 []) 0 []

end Sys2Proof.Machine
end

