-- ==== Sys2Proof/Machine/Codec.lean ====
section
/-! DEFINITION. The Codec: the codeword's layout, the column table, encoding, the syndrome, the four outcomes and the
poison marker (R3 to R14); and the sets of codeword indices. -/

namespace Sys2Proof.Machine

/-! ### Sets of codeword indices -/

/-- The set that holds codeword i alone. -/
def cwBit (i : CwIndex) : CwSet := 1#8 <<< i.val

/-- The codewords for which p says yes. -/
def cwSetOf (p : CwIndex → Bool) : CwSet :=
  (List.finRange 8).foldl (fun acc i => if p i then acc ||| cwBit i else acc) 0

/-- Whether a set holds codeword i. -/
def CwSet.has (s : CwSet) (i : CwIndex) : Bool := s.getLsbD i.val

/-! ### The codeword's layout (R3) -/

/-- The data bits of a codeword. -/
def Codeword.data (w : Codeword) : Data := w.extractLsb' 0 64

/-- The check byte of a codeword. -/
def Codeword.check (w : Codeword) : Byte := w.extractLsb' 64 8

/-- The data of codeword i of a line: data bytes 8i to 8i + 7 (R3). -/
def LineData.codeword (d : LineData) (i : CwIndex) : Data := d.extractLsb' (64 * i.val) 64

/-- Data byte b of a line (R78). -/
def LineData.byte (d : LineData) (b : Fin 64) : Byte := d.extractLsb' (8 * b.val) 8

/-- The eight mask bits of codeword i (R78, R85). -/
def maskOf (mask : BitVec 64) (i : CwIndex) : Byte := mask.extractLsb' (8 * i.val) 8

/-- A line made of the data of its eight codewords. -/
def lineOf (f : CwIndex → Data) : LineData :=
  (List.finRange 8).foldl (fun acc i => acc ||| ((f i).setWidth 512 <<< (64 * i.val))) 0

/-- Old data with the bytes that the mask names replaced by new ones (R88). -/
def mergeBytes (mask : Byte) (old new : Data) : Data :=
  (List.finRange 8).foldl
    (fun acc j =>
      acc ||| ((if mask.getLsbD j.val then new else old) &&& (0xFF#64 <<< (8 * j.val)))) 0

/-! ### The column table (R4) -/

def columnsLow : List Byte :=
  [0x07, 0x0B, 0x0D, 0x0E, 0x13, 0x15, 0x16, 0x19] ++
  [0x1A, 0x1C, 0x23, 0x25, 0x26, 0x29, 0x2A, 0x2C] ++
  [0x31, 0x32, 0x34, 0x38, 0x43, 0x45, 0x46, 0x49] ++
  [0x4A, 0x4C, 0x51, 0x52, 0x54, 0x58, 0x61, 0x62]

def columnsHigh : List Byte :=
  [0x64, 0x68, 0x70, 0x83, 0x85, 0x86, 0x89, 0x8A] ++
  [0x8C, 0x91, 0x92, 0x94, 0x98, 0xA1, 0xA2, 0xA4] ++
  [0xA8, 0xB0, 0xC1, 0xC2, 0xC4, 0xC8, 0xD0, 0xE0] ++
  [0x1F, 0x2F, 0x37, 0x3B, 0x3D, 0x3E, 0x4F, 0x57]

def columnsCheck : List Byte := [0x01, 0x02, 0x04, 0x08, 0x10, 0x20, 0x40, 0x80]

/-- The columns of the 72 positions, in order. -/
def columns : List Byte := columnsLow ++ columnsHigh ++ columnsCheck

/-- The column of a position (R4). -/
def column (p : BitPos) : Byte := columns.getD p.val 0

/-! ### Encoding and decoding -/

/-- The XOR of the columns whose bit is 1, where `cols` starts at bit n. -/
def xorColumns (d : Data) : Nat → List Byte → Byte
  | _, [] => 0
  | n, c :: cs => (if d.getLsbD n then c else 0) ^^^ xorColumns d (n + 1) cs

/-- The check byte of 64 data bits (R5). -/
def checkOf (d : Data) : Byte := xorColumns d 0 (columnsLow ++ columnsHigh)

/-- The codeword that encodes 64 data bits (R5). -/
def encode (d : Data) : Codeword := checkOf d ++ d

/-- The syndrome of a stored codeword (R6). -/
def syndrome (w : Codeword) : Byte := checkOf (Codeword.data w) ^^^ Codeword.check w

/-- The syndrome set apart for the poison marker (R7, R10). -/
def poisonSyndrome : Byte := 0x3C

/-- The poison marker: zero data with the check byte 0x3C (R10). -/
def marker : Codeword := 0x3C#8 ++ 0#64

/-- The position whose column a syndrome is (R7). -/
def positionOf (syn : Byte) : Option BitPos := (List.finRange 72).find? (fun p => column p == syn)

/-- The Codec's verdict on one codeword (R7); the manual's "outcome". -/
inductive Verdict where
  | clean
  | corrected (p : BitPos)
  | poison
  | uncorrectable
  deriving DecidableEq, Repr

/-- The verdict that a syndrome gives (R7). -/
def verdictOf (syn : Byte) : Verdict :=
  if syn = 0 then .clean
  else if syn = poisonSyndrome then .poison
  else match positionOf syn with
    | some p => .corrected p
    | none   => .uncorrectable

/-- A codeword with the bit at position p inverted. -/
def flipBit (w : Codeword) (p : BitPos) : Codeword := w ^^^ (1#72 <<< p.val)

/-- What the Codec reports for one codeword (R8); the position stands in the verdict. -/
structure Report where
  verdict  : Verdict
  syndrome : Byte
  data     : Data
  fixed    : Option Codeword
  deriving DecidableEq, Repr

/-- The report of one codeword (R7, R8): the decoded data of a CORRECTED codeword is that of the corrected codeword. -/
def report (w : Codeword) : Report :=
  let syn := syndrome w
  match verdictOf syn with
  | .corrected p =>
      { verdict := .corrected p, syndrome := syn, data := Codeword.data (flipBit w p), fixed := some (flipBit w p) }
  | v => { verdict := v, syndrome := syn, data := Codeword.data w, fixed := none }

/-- The eight reports of a line read (R9): what DRAM returned is the words as the part's writes left them when the read
was issued, with the upset bits inverted. -/
def reportsOf (words upsets : LineWords) : Vector Report 8 :=
  Vector.ofFn (fun i => report (words.get i ^^^ upsets.get i))

/-- A codeword that is a CE (R7). -/
def Verdict.isCe : Verdict → Bool
  | .corrected _ => true
  | _ => false

/-- A codeword that is lost: UNCORRECTABLE or POISON (R82). -/
def Verdict.isLost : Verdict → Bool
  | .poison => true
  | .uncorrectable => true
  | _ => false

/-- The codewords of a read whose verdict satisfies a test. -/
def cwsWhere (reps : Vector Report 8) (p : Verdict → Bool) : CwSet :=
  cwSetOf (fun i => p (reps.get i).verdict)

end Sys2Proof.Machine
end

