-- ==== Sys2Proof/Machine/Table.lean ====
section
/-! DEFINITION. The Defect Record Table as a list in key order: probes, creation, eviction, removal, the redirection
answer's location, and the poison notices (R15 to R27). -/

namespace Sys2Proof.Machine

/-- The places of the table (R17). -/
def tableCapacity : Nat := 1024

/-- Keys are ordered by channel first, then by line (terms, "Record, key"). -/
def Key.lt (a b : Key) : Bool :=
  decide (a.channel < b.channel) || (decide (a.channel = b.channel) && decide (a.line < b.line))

/-- The record of a key, if it has one. -/
def findRec (t : List Record) (k : Key) : Option Record := t.find? (fun r => r.key == k)

/-- Changes the record of a key, if it has one; the change keeps the key. -/
def updateRec (t : List Record) (k : Key) (f : Record → Record) : List Record :=
  t.map (fun r => if r.key = k then f r else r)

/-- Removes the record of a key. -/
def eraseRec (t : List Record) (k : Key) : List Record := t.filter (fun r => r.key != k)

/-- Places a record in key order (R17). -/
def insertRec : List Record → Record → List Record
  | [], r => [r]
  | x :: xs, r => if Key.lt r.key x.key then r :: x :: xs else x :: insertRec xs r

/-- A new record (R25). -/
def newRecord (k : Key) (o : Origin) : Record :=
  { key := k, state := .watch, score := 0, lastBit := none, rep := 0, age := 0, poison := 0
    spareSlot := none, targetSlot := none, priorState := none
    pinned := false, hold := false, spareWanted := false, origin := o }

/-- The origin that a delivery's source gives a new record (R15). -/
def originOf : ReadSource → Origin
  | .demandRead  => .demand
  | .demandMerge => .demand
  | .patrol      => .patrol
  | .focus       => .patrol
  | .migration   => .migration

/-- The location of a record (R20): where a read of its line is served. -/
def Record.location (r : Record) : Loc :=
  match r.state, r.spareSlot with
  | .spared, some s  => .slot s
  | .sparing, some s => .slot s
  | _, _ => .line r.key.line

/-- A record of the channel whose location is the given one. -/
def Record.isAt (r : Record) (ch : ChanId) (loc : Loc) : Bool :=
  decide (r.key.channel = ch) && decide (r.location = loc)

/-- Whether the channel has any record (R73). -/
def hasRecords (t : List Record) (ch : ChanId) : Bool := t.any (fun r => decide (r.key.channel = ch))

/-! ### Poison notices (R24) -/

/-- Codewords enter the poison set of the record at a location; a RETIRED record records nothing (R24). -/
def addPoison (t : List Record) (ch : ChanId) (loc : Loc) (cws : CwSet) : List Record :=
  t.map (fun r => if r.isAt ch loc ∧ r.state ≠ .retired then { r with poison := r.poison ||| cws } else r)

/-- Codewords leave the poison set of the record at a location (R24). -/
def removePoison (t : List Record) (ch : ChanId) (loc : Loc) (cws : CwSet) : List Record :=
  t.map (fun r => if r.isAt ch loc then { r with poison := r.poison &&& ~~~cws } else r)

/-- The poison set of every record of a channel is emptied (R18, R74). -/
def clearPoison (t : List Record) (ch : ChanId) : List Record :=
  t.map (fun r => if r.key.channel = ch then { r with poison := 0 } else r)

/-! ### Eviction (R26) -/

/-- The records that an eviction may take. -/
def Record.evictable (r : Record) : Bool :=
  decide (r.state = .watch) && !r.pinned && decide (r.poison = 0)

/-- Whether an eviction takes a before b: lower score, then larger age, then lower key. -/
def Record.evictsBefore (a b : Record) : Bool :=
  decide (a.score < b.score) ||
    (decide (a.score = b.score) &&
      (decide (b.age < a.age) || (decide (a.age = b.age) && Key.lt a.key b.key)))

/-- The element of a list that comes before all others, by a strict order. -/
def firstBy {α : Type} (before : α → α → Bool) (l : List α) : Option α :=
  l.foldl (fun best r =>
    match best with
    | none => some r
    | some b => if before r b then some r else some b) none

/-- The record an eviction removes, if there is a candidate. -/
def evictee (t : List Record) : Option Record := firstBy Record.evictsBefore (t.filter Record.evictable)

/-- The table with room for one more record: as it is when not full, after an eviction when full (R25 to R27). -/
def makeRoom (t : List Record) : Option (List Record) :=
  if t.length < tableCapacity then some t
  else (evictee t).map (fun r => eraseRec t r.key)

/-! ### The record's slot fields (R29 to R32) -/

/-- A record enters SPARING with its target slot (R29). -/
def Record.enterSparing (r : Record) (target : SlotId) (clearHold : Bool) : Record :=
  { r with
    state := .sparing
    targetSlot := some target
    priorState := some (if r.state = .spared then .spared else .hot)
    hold := r.hold && !clearHold }

/-- The state a prior state names. -/
def PriorState.toState : PriorState → RecState
  | .hot    => .hot
  | .spared => .spared

/-- A record leaves SPARING without a commit (R32); `setHold` is no for a soft reset. -/
def Record.leaveSparing (r : Record) (setHold : Bool) : Record :=
  { r with
    state := (r.priorState.getD .hot).toState
    targetSlot := none
    priorState := none
    hold := r.hold || setHold }

/-- A record commits to its target slot (R31). -/
def Record.commit (r : Record) : Record :=
  { r with
    state := .spared
    score := 0
    rep := 0
    lastBit := none
    spareWanted := false
    spareSlot := r.targetSlot
    targetSlot := none
    priorState := none }

end Sys2Proof.Machine
end

