-- ==== Sys2Proof/Machine/Region.lean ====
section
/-! DEFINITION. The Region Map: class lookup, class policies, and the lines a patrol passes over (R61 to R67). -/

namespace Sys2Proof.Machine

/-- The code of a class (R191), which is also its place among the policies. -/
def MemClass.code : MemClass → Fin 4
  | .critical   => 0
  | .standard   => 1
  | .bulk       => 2
  | .unscrubbed => 3

/-- Whether a window covers a key (R61). -/
def Window.covers (w : Window) (ch : ChanId) (line : Nat) : Bool :=
  w.enabled && w.channels.getLsbD ch.val && decide (w.first ≤ line) && decide (line ≤ w.last)

/-- The class of a key: that of the lowest-numbered window that covers it, STANDARD when none does (R62). -/
def classIn (ws : Vector Window 8) (ch : ChanId) (line : Nat) : MemClass :=
  match ws.toList.find? (fun w => w.covers ch line) with
  | some w => w.cls
  | none   => .standard

/-- Only UNSCRUBBED is not patrolled (R63, R65). -/
def MemClass.patrolled : MemClass → Bool
  | .unscrubbed => false
  | _ => true

/-- The alert cause that a UE of a class raises (R63, R174). -/
def MemClass.ueCause : MemClass → Cause
  | .critical => .ueCritical
  | _ => .ue

/-- The lines at which a channel's class can change: where a window begins and just past where it ends. -/
def classEdges (ws : Vector Window 8) : List Nat := ws.toList.flatMap (fun w => [w.first, w.last + 1])

/-- The least line from `start` up, below `bound`, that satisfies a test whose truth begins only at `start` or at one of
the given edges. -/
def leastFrom (start bound : Nat) (edges : List Nat) (test : Nat → Bool) : Option Nat :=
  ((start :: edges).filter (fun l => decide (start ≤ l) && decide (l < bound) && test l)).min?

/-- The first patrolled line of a channel from a line up, below the visible line count (R67, R105). -/
def nextPatrolled (ws : Vector Window 8) (ch : ChanId) (visible start : Nat) : Option Nat :=
  leastFrom start visible (classEdges ws) (fun l => (classIn ws ch l).patrolled)

/-- The skip end of an unpatrolled line: the last line of the unbroken unpatrolled run that begins there (R67). -/
def skipEnd (ws : Vector Window 8) (ch : ChanId) (visible start : Nat) : Nat :=
  match nextPatrolled ws ch visible start with
  | some l => l - 1
  | none   => visible - 1

/-- A record that a patrol passes by (R106). -/
def Record.skipped (r : Record) : Bool := decide (r.state = .retired) || decide (r.state = .sparing)

/-- Whether the record of a line makes a patrol skip it (R106). -/
def lineSkipped (t : List Record) (ch : ChanId) (line : Nat) : Bool :=
  match findRec t { channel := ch, line := line } with
  | some r => r.skipped
  | none   => false

/-- The first line of a channel from a line up that a patrol reads: patrolled, and not of a RETIRED or SPARING record. -/
def nextReadable (ws : Vector Window 8) (t : List Record) (ch : ChanId) (visible start : Nat) : Option Nat :=
  leastFrom start visible
    (classEdges ws ++ (t.filter (fun r => decide (r.key.channel = ch))).map (fun r => r.key.line + 1))
    (fun l => (classIn ws ch l).patrolled && !lineSkipped t ch l)

end Sys2Proof.Machine
end

