-- ==== Sys2Proof/Machine/Flags.lean ====
section
/-! DEFINITION. The alert causes as flags: their bits, raising, the ALERT line and the summary byte (R175 to R177, R190,
R191). -/

namespace Sys2Proof.Machine

/-- The bit of a cause (R191). -/
def Cause.bit : Cause → Fin 12
  | .ue => 0
  | .ueCritical => 1
  | .poisonRead => 2
  | .spareExhausted => 3
  | .tableFull => 4
  | .migrationDone => 5
  | .migrationFailed => 6
  | .passDone => 7
  | .channelReady => 8
  | .cadenceLost => 9
  | .linkFault => 10
  | .protocol => 11

/-- The set that holds one cause. -/
def Cause.single (c : Cause) : CauseSet := 1#12 <<< c.bit.val

/-- Whether a cause set holds a cause. -/
def hasCause (s : CauseSet) (c : Cause) : Bool := s.getLsbD c.bit.val

/-- Raising a cause adds it to the alert cause set (R175). -/
def State.raise (s : State) (c : Cause) : State := { s with causes := s.causes ||| c.single }

/-- Whether the ALERT line is asserted: an unmasked cause is set (R177); it is released while RESET is held (R203). -/
def State.alertLine (s : State) : Bool :=
  !s.resetAsserted && decide (s.causes &&& ~~~s.settings.alertMask ≠ 0)

/-- The summary byte (R190): the ALERT line in bit 7, the link error count in bits 3 to 0. -/
def summaryByte (alert : Bool) (count : Nat) : Byte :=
  BitVec.ofBool alert ++ (0#3 ++ BitVec.ofNat 4 count)

end Sys2Proof.Machine
end

