-- ==== Sys2Proof/Machine/Dram.lean ====
section
/-! DEFINITION. What the part's writes have left in a channel's DRAM: a list of codeword addresses and contents in one
canonical form, and the physical place of a location (R20, R140). -/

namespace Sys2Proof.Machine

/-- The content that the part's writes left at a codeword address; none where no write has reached. -/
def dramGet : List (Nat × Codeword) → Nat → Option Codeword
  | [], _ => none
  | (k, w) :: rest, a => if k = a then some w else dramGet rest a

/-- A write of one codeword; the addresses stay strictly rising. -/
def dramPut : List (Nat × Codeword) → Nat → Codeword → List (Nat × Codeword)
  | [], a, w => [(a, w)]
  | (k, v) :: rest, a, w =>
      if a < k then (a, w) :: (k, v) :: rest
      else if a = k then (a, w) :: rest
      else (k, v) :: dramPut rest a w

/-- The canonical form: addresses strictly rising. An address that is not listed has been written by nobody. -/
def dramWf : List (Nat × Codeword) → Bool
  | [] => true
  | [_] => true
  | (a, _) :: (b, w) :: rest => decide (a < b) && dramWf ((b, w) :: rest)

/-- The visible lines of a channel (R73). -/
def Channel.visible (c : Channel) : Nat := c.physLines - 512

/-- The physical line of a location: a visible line is itself, spare slot s is PHYS_LINES − 512 + s (R20, R140). -/
def Channel.physical (c : Channel) : Loc → Nat
  | .line n => n
  | .slot s => c.physLines - 512 + s.val

/-- Whether a location is one of the channel's physical lines (R73). -/
def Channel.inDram (c : Channel) (loc : Loc) : Bool :=
  decide (512 ≤ c.physLines) && decide (c.physical loc < c.physLines)

/-- The address of codeword i of a physical line. -/
def cwAddress (physicalLine : Nat) (i : CwIndex) : Nat := 8 * physicalLine + i.val

/-- What DRAM holds at codeword i of a location, as the part's writes and its power-up left it. -/
def Channel.cwAt (c : Channel) (ch : ChanId) (loc : Loc) (i : CwIndex) : Codeword :=
  (dramGet c.dram (cwAddress (c.physical loc) i)).getD (Config.dramPowerUp ch (cwAddress (c.physical loc) i))

/-- The eight codewords at a location. -/
def Channel.lineAt (c : Channel) (ch : ChanId) (loc : Loc) : LineWords := Vector.ofFn (fun i => c.cwAt ch loc i)

/-- The codeword that a write puts in DRAM, if it writes that codeword at all. -/
def CwWrite.content : CwWrite → Option Codeword
  | .keep   => none
  | .word w => some w
  | .marker => some Machine.marker

/-- One write operation at a location: each codeword as the plan gives it, the others left as they are. -/
def Channel.writeLine (c : Channel) (loc : Loc) (plan : Vector CwWrite 8) : Channel :=
  { c with
    dram := (List.finRange 8).foldl
      (fun mem i =>
        match (plan.get i).content with
        | some w => dramPut mem (cwAddress (c.physical loc) i) w
        | none   => mem) c.dram }

/-- The codewords that a write writes. -/
def writtenSet (plan : Vector CwWrite 8) : CwSet := cwSetOf (fun i => (plan.get i).content.isSome)

/-- The codewords that a write writes with the marker. -/
def markerSet (plan : Vector CwWrite 8) : CwSet := cwSetOf (fun i => plan.get i == .marker)

/-- The plan of a poison write: the marker in each codeword it covers (R84). -/
def poisonPlan (cws : CwSet) : Vector CwWrite 8 :=
  Vector.ofFn (fun i => if CwSet.has cws i then .marker else .keep)

end Sys2Proof.Machine
end

