-- ==== Sys2Proof/Machine/Operands.lean ====
section
/-! DEFINITION. The encodings of arguments and payloads on the maintenance link (R188, R191): each argument byte to the
item it names, none where it holds a code outside those listed, and each item to its code. -/

namespace Sys2Proof.Machine

/-! ### Arguments -/

/-- A channel byte, 0 to 3. -/
def channelArg (b : Byte) : Option ChanId :=
  if h : b.toNat < 4 then some ⟨b.toNat, h⟩ else none

/-- A spare slot, 0 to 511. -/
def slotArg (v : BitVec 16) : Option SlotId :=
  if h : v.toNat < 512 then some ⟨v.toNat, h⟩ else none

/-- A record state. -/
def stateArg (b : Byte) : Option RecState :=
  match b.toNat with
  | 0 => some .watch
  | 1 => some .hot
  | 2 => some .sparing
  | 3 => some .spared
  | 4 => some .retired
  | _ => none

/-- The state filter of NEXT: one of the five states, or ANY. -/
inductive Filter where
  | any
  | only (st : RecState)
  deriving DecidableEq, Repr

def filterArg (b : Byte) : Option Filter :=
  if b = 5 then some .any else (stateArg b).map .only

/-- A class. -/
def classArg (b : Byte) : Option MemClass :=
  match b.toNat with
  | 0 => some .critical
  | 1 => some .standard
  | 2 => some .bulk
  | 3 => some .unscrubbed
  | _ => none

/-- A phase. -/
def phaseArg (b : Byte) : Option Phase :=
  match b.toNat with
  | 0 => some .closed
  | 1 => some .preopen
  | 2 => some .auction
  | 3 => some .continuous
  | _ => none

/-- A patrol mode. -/
def modeArg (b : Byte) : Option PatrolMode :=
  match b.toNat with
  | 0 => some .single
  | 1 => some .continuous
  | _ => none

/-- Yes or no; also the flag byte of an optional argument. -/
def yesNoArg (b : Byte) : Option Bool :=
  match b.toNat with
  | 0 => some false
  | 1 => some true
  | _ => none

/-- A channel set: bit c for channel c, bits 4 to 7 zero. -/
def channelSetArg (b : Byte) : Option (BitVec 4) :=
  if b.toNat < 16 then some (b.setWidth 4) else none

/-- A cause set in ALERT_ACK: bits 12 to 15 name no cause. -/
def causesArg (v : BitVec 16) : Option CauseSet :=
  if v.toNat < 4096 then some (v.setWidth 12) else none

/-- A window index, 0 to 7. -/
def windowArg (b : Byte) : Option (Fin 8) :=
  if h : b.toNat < 8 then some ⟨b.toNat, h⟩ else none

/-! ### Codes -/

def ChanId.byte (c : ChanId) : Byte := BitVec.ofNat 8 c.val

def RecState.byte : RecState → Byte
  | .watch => 0
  | .hot => 1
  | .sparing => 2
  | .spared => 3
  | .retired => 4

def MemClass.byte (c : MemClass) : Byte := BitVec.ofNat 8 c.code.val

/-- The code of a phase, which is also its place among the profiles. -/
def Phase.code : Phase → Fin 4
  | .closed     => 0
  | .preopen    => 1
  | .auction    => 2
  | .continuous => 3

def Phase.byte (p : Phase) : Byte := BitVec.ofNat 8 p.code.val

def PatrolMode.byte : PatrolMode → Byte
  | .single => 0
  | .continuous => 1

def PatrolState.code : PatrolState → BitVec 2
  | .idle => 0
  | .running => 1
  | .halting => 2
  | .done => 3

def ChannelState.code : ChannelState → BitVec 2
  | .disabled => 0
  | .initializing => 1
  | .online => 2

def SlotState.byte : SlotState → Byte
  | .free => 0
  | .allocated => 1
  | .defective => 2

def CadSource.byte : CadSource → Byte
  | .internal => 0
  | .external => 1

def Origin.code : Origin → BitVec 2
  | .demand => 0
  | .patrol => 1
  | .migration => 2
  | .host => 3

def ReadSource.byte : ReadSource → Byte
  | .demandRead => 0
  | .demandMerge => 1
  | .patrol => 2
  | .focus => 3
  | .migration => 4

def ErrKind.byte : ErrKind → Byte
  | .ce => 0
  | .ue => 1

def priorCode : Option PriorState → BitVec 2
  | none => 0
  | some .hot => 1
  | some .spared => 2

def yesNoByte (b : Bool) : Byte := if b then 1 else 0

/-- A spare slot field, 0xFFFF for absent. -/
def slotField (s : Option SlotId) : BitVec 16 :=
  match s with
  | some n => BitVec.ofNat 16 n.val
  | none   => 0xFFFF

/-- A bit position field, 0xFF for absent. -/
def bitField (p : Option BitPos) : Byte :=
  match p with
  | some n => BitVec.ofNat 8 n.val
  | none   => 0xFF

/-- The code of a result (R188). -/
def Result.byte : Result → Byte
  | .ok => 0x00
  | .accepted => 0x01
  | .clamped => 0x02
  | .busy => 0x03
  | .notReady => 0x04
  | .range => 0x05
  | .state => 0x06
  | .notFound => 0x07
  | .exists => 0x08
  | .full => 0x09
  | .noSpare => 0x0A
  | .unknown => 0x0B
  | .checkError => 0x0C
  | .short => 0x0D

end Sys2Proof.Machine
end

