-- ==== Sys2Proof/Machine/Layout.lean ====
section
/-! DEFINITION. The payload layouts of the maintenance link (R192, R193, R197, R198). A payload is 20 bytes, byte 0 most
significant, so a layout reads left to right as its table reads down; bytes a command does not fill are zero. -/

namespace Sys2Proof.Machine

/-- The flags byte of a record readout (R193). -/
def recordFlags (r : Record) : Byte :=
  BitVec.ofBool r.pinned ++ (BitVec.ofBool r.hold ++ (BitVec.ofBool r.spareWanted ++
    (r.origin.code ++ (priorCode r.priorState ++ 0#1))))

/-- The 17-byte record readout (R193). -/
def recordReadout (r : Record) : BitVec 160 :=
  ChanId.byte r.key.channel ++ (BitVec.ofNat 32 r.key.line ++ (r.state.byte ++ (BitVec.ofNat 16 r.score ++
    (bitField r.lastBit ++ (BitVec.ofNat 8 r.rep ++ (BitVec.ofNat 8 r.age ++ (r.poison ++
      (slotField r.spareSlot ++ (slotField r.targetSlot ++ (recordFlags r ++ 0#24))))))))))

/-- The capture readout (R193): empty, or the fields of the holding record. -/
def captureReadout (ch : ChanId) (c : Option Capture) : BitVec 160 :=
  match c with
  | none => 0
  | some k =>
      1#8 ++ (k.outcome.byte ++ (k.source.byte ++ (ChanId.byte ch ++ (BitVec.ofNat 32 k.line ++
        (BitVec.ofNat 8 k.codeword.val ++ (bitField k.bit ++ (k.syndrome ++ (k.tag.getD 0 ++
          ((0#6 ++ (BitVec.ofBool k.slot.isSome ++ BitVec.ofBool k.tag.isSome)) ++ (k.cls.byte ++
            (slotField k.slot ++ 0#32)))))))))))

/-- The window readout of REGION_GET (R192). -/
def windowReadout (i : Fin 8) (w : Window) : BitVec 160 :=
  BitVec.ofNat 8 i.val ++ (yesNoByte w.enabled ++ (w.channels.setWidth 8 ++ (BitVec.ofNat 32 w.first ++
    (BitVec.ofNat 32 w.last ++ (w.cls.byte ++ 0#64)))))

/-- The class readout of CLASS_GET (R192): the four changeable items and the two fixed ones. -/
def classReadout (c : MemClass) (p : Policy) : BitVec 160 :=
  c.byte ++ (BitVec.ofNat 16 p.tHot ++ (BitVec.ofNat 16 p.tSpare ++ (yesNoByte p.autoSpare ++
    (yesNoByte p.demandWb ++ (yesNoByte c.patrolled ++ (yesNoByte (decide (c.ueCause = .ueCritical)) ++ 0#88))))))

/-- The profile readout of PROFILE_GET (R192). -/
def profileReadout (p : Phase) (f : Profile) : BitVec 160 :=
  p.byte ++ (f.mask ++ (BitVec.ofNat 8 f.ops ++ 0#112))

/-- The payload of GET_SETTING and SET_SETTING (R192): the identifier and the value. -/
def settingReadout (id : Byte) (v : Nat) : BitVec 160 := id ++ (BitVec.ofNat 32 v ++ 0#120)

/-- The payload of the channel commands (R192): the channel state and the fill progress. -/
def channelReadout (c : Channel) : BitVec 160 :=
  c.state.code.setWidth 8 ++ (BitVec.ofNat 32 c.fillProgress ++ 0#120)

/-- The payload of PATROL_START and PATROL_HALT (R192): the engine state and the position. -/
def patrolReadout (p : PatrolEngine) : BitVec 160 :=
  p.state.code.setWidth 8 ++ (BitVec.ofNat 32 p.position ++ 0#120)

/-- The payload of SET_PHASE (R192). -/
def phaseReadout (c : Cadence) : BitVec 160 :=
  c.activePhase.byte ++ ((match c.pendingPhase with | some p => p.byte | none => 0xFF) ++ 0#144)

/-- The payload of COUNTS_READ and COUNTS_CLEAR (R192). -/
def countsReadout (c : Channel) : BitVec 160 :=
  BitVec.ofNat 16 c.ceCount ++ (BitVec.ofNat 16 c.ueCount ++ 0#128)

/-- How many slots of a channel are in a state (R143). -/
def Channel.countSlots (c : Channel) (st : SlotState) : Nat := c.slots.toList.countP (· == st)

/-- The lowest-numbered FREE slot of a channel (R141, R143). -/
def Channel.lowestFree (c : Channel) : Option SlotId :=
  (List.finRange 512).find? (fun i => c.slots.get i == .free)

/-- The payload of SPARE_QUERY (R143, R192). -/
def spareQueryReadout (c : Channel) : BitVec 160 :=
  BitVec.ofNat 16 (c.countSlots .free) ++ (BitVec.ofNat 16 (c.countSlots .allocated) ++
    (BitVec.ofNat 16 (c.countSlots .defective) ++ (slotField c.lowestFree ++ 0#96)))

/-- The role in which a record names a slot (R144). -/
inductive SlotRole where
  | spare | target
  deriving DecidableEq, Repr

/-- The record of a channel that names a slot, and its role (R16, R144). -/
def slotOwner (t : List Record) (ch : ChanId) (s : SlotId) : Option (Record × SlotRole) :=
  (t.find? (fun r => decide (r.key.channel = ch) && (r.spareSlot == some s || r.targetSlot == some s))).map
    (fun r => (r, if r.spareSlot = some s then .spare else .target))

/-- The payload of SPARE_SLOT (R144, R192): only an ALLOCATED slot has an owner and a role. -/
def spareSlotReadout (st : SlotState) (owner : Option (Record × SlotRole)) : BitVec 160 :=
  match st, owner with
  | .allocated, some (r, role) =>
      st.byte ++ ((match role with | .spare => 0#8 | .target => 1#8) ++
        (ChanId.byte r.key.channel ++ (BitVec.ofNat 32 r.key.line ++ 0#104)))
  | _, _ => st.byte ++ (0xFF#8 ++ (0xFF#8 ++ 0#136))

/-- The payload of ALERT_READ (R178, R192). -/
def alertReadout (s : State) : BitVec 160 :=
  s.causes.setWidth 16 ++ (s.settings.alertMask.setWidth 16 ++ (yesNoByte s.alertLine ++ 0#120))

/-- The payload of ALERT_ACK (R179, R192): the set before and after. -/
def ackReadout (before after : CauseSet) : BitVec 160 :=
  before.setWidth 16 ++ (after.setWidth 16 ++ 0#128)

/-- Two bits per channel, channel 0 in bits 1 to 0 (R197). -/
def packTwo (f : ChanId → BitVec 2) : Byte := f 3 ++ (f 2 ++ (f 1 ++ f 0))

/-- The device page of STATUS (R197). -/
def devicePage (s : State) : BitVec 160 :=
  s.cadence.activePhase.byte ++ ((match s.cadence.pendingPhase with | some p => p.byte | none => 0xFF#8) ++
    (s.cadence.activeSource.byte ++ ((match s.cadence.slotIndex with | some i => BitVec.ofNat 8 i | none => 0xFF#8) ++
      (s.causes.setWidth 16 ++ (BitVec.ofNat 8 s.linkErrors ++ (BitVec.ofNat 16 s.table.length ++
        (packTwo (fun c => (s.chans.get c).state.code) ++ (packTwo (fun c => (s.chans.get c).patrol.state.code) ++
          ((0#4 ++ (BitVec.ofBool (s.chans.get 3).migration.isSome ++ (BitVec.ofBool (s.chans.get 2).migration.isSome ++
            (BitVec.ofBool (s.chans.get 1).migration.isSome ++ BitVec.ofBool (s.chans.get 0).migration.isSome)))) ++
            0#64)))))))))

/-- A channel page of STATUS (R198). -/
def channelPage (ch : ChanId) (c : Channel) : BitVec 160 :=
  ChanId.byte ch ++ (c.state.code.setWidth 8 ++ (BitVec.ofNat 32 c.fillProgress ++ (c.patrol.state.code.setWidth 8 ++
    (c.patrol.mode.byte ++ (BitVec.ofNat 32 c.patrol.position ++ (BitVec.ofNat 16 c.patrol.pass ++
      (yesNoByte c.migration.isSome ++ (BitVec.ofNat 8 c.queue.length ++ (BitVec.ofNat 8 c.budget ++ 0#24)))))))))

end Sys2Proof.Machine
end

