-- ==== Sys2Proof/Machine/Ops.lean ====
section
/-! DEFINITION. The named operations that the commands share: channel access, the Write-back Queue, spare slots, the
migration's start and ends, selection, poison notices, deliveries and capture. -/

namespace Sys2Proof.Machine

/-! ### Channel access -/

/-- The channel of a number. -/
def State.chan (s : State) (ch : ChanId) : Channel := s.chans.get ch

/-- Changes one channel. -/
def State.modChan (s : State) (ch : ChanId) (f : Channel → Channel) : State :=
  { s with chans := s.chans.set ch.val (f (s.chan ch)) }

/-- Changes every channel alike. -/
def State.modAllChans (s : State) (f : Channel → Channel) : State := { s with chans := s.chans.map f }

/-- The record of a line. -/
def State.rec? (s : State) (ch : ChanId) (line : Nat) : Option Record :=
  findRec s.table { channel := ch, line := line }

/-- Changes the record of a line. -/
def State.modRec (s : State) (ch : ChanId) (line : Nat) (f : Record → Record) : State :=
  { s with table := updateRec s.table { channel := ch, line := line } f }

/-- The class of a line (R62). -/
def State.classOf (s : State) (ch : ChanId) (line : Nat) : MemClass := classIn s.windows ch line

/-- The policy of a class (R63). -/
def State.policy (s : State) (c : MemClass) : Policy := s.policies.get c.code

/-- The profile of a phase (R133). -/
def State.profile (s : State) (p : Phase) : Profile := s.profiles.get p.code

/-! ### The Write-back Queue (R91 to R93) and the held offers (R114, R115) -/

/-- The places of a Write-back Queue (R91). -/
def wbqCapacity : Nat := 4

/-- Whether two entries are for the same location and codeword. -/
def WbEntry.same (a b : WbEntry) : Bool := a.loc == b.loc && a.cw == b.cw

/-- An offer to a Write-back Queue (R92): it replaces an entry for its location and codeword in place, joins the tail when
there is room, and is not taken when the queue is full. -/
def offerTo (q : List WbEntry) (e : WbEntry) : Option (List WbEntry) :=
  if q.any (fun x => x.same e) then some (q.map (fun x => if x.same e then e else x))
  else if q.length < wbqCapacity then some (q ++ [e])
  else none

/-- An offer of origin DEMAND: dropped when the queue is full (R92). -/
def Channel.offerDemand (c : Channel) (e : WbEntry) : Channel :=
  { c with wbq := (offerTo c.wbq e).getD c.wbq }

/-- The held offers offered again in order, up to the first that finds the queue full (R114): the queue, and what stays
held. -/
def offerHeld : List WbEntry → List WbEntry → List WbEntry × List WbEntry
  | q, [] => (q, [])
  | q, e :: rest =>
      match offerTo q e with
      | some q' => offerHeld q' rest
      | none    => (q, e :: rest)

/-- The Patrol Engine offers its held offers again (R114). -/
def Channel.reoffer (c : Channel) : Channel :=
  { c with
    wbq := (offerHeld c.wbq c.patrol.held).1
    patrol := { c.patrol with held := (offerHeld c.wbq c.patrol.held).2 } }

/-- Offers of origin PATROL, in order (R111): made while none is held, and held from the first that finds the queue full. -/
def Channel.offerPatrol (c : Channel) (es : List WbEntry) : Channel :=
  Channel.reoffer { c with patrol := { c.patrol with held := c.patrol.held ++ es } }

/-- The queue after some entries have left it; the consecutive-demand count becomes 0 when it becomes empty (R97). DESIGN
CHOICE (log entry 26): the queue counts as having become empty also where held offers join it in the same change (R114). -/
def Channel.setWbq (c : Channel) (q : List WbEntry) : Channel :=
  { c with wbq := q, demandCount := if q.isEmpty then 0 else c.demandCount }

/-- The entries and held offers that satisfy a test are dropped (R93, R115); if an entry left the queue, the offers still
held are offered again (R114). -/
def Channel.dropWrites (c : Channel) (p : WbEntry → Bool) : Channel :=
  let c1 := { c with patrol := { c.patrol with held := c.patrol.held.filter (fun e => !p e) } }
  if c.wbq.any p then Channel.reoffer (c1.setWbq (c.wbq.filter (fun e => !p e))) else c1

/-- The Write-back Queue is emptied (R73, R74, R91), and the held offers are offered again (R104, R114). -/
def Channel.emptyWbq (c : Channel) : Channel := Channel.reoffer (c.setWbq [])

/-- An entry is eligible while no read of its location awaits its decode (R94). -/
def Channel.wbEligible (c : Channel) (e : WbEntry) : Bool := !c.flights.any (fun f => f.loc == e.loc)

/-- The oldest eligible entry (R94). -/
def Channel.wbNext (c : Channel) : Option WbEntry := c.wbq.find? c.wbEligible

/-! ### Owed poison writes and superseded marks -/

/-- A demand write takes the codewords it writes out of each poison write owed to that location; one left with no codeword
is not issued (R84, R90). -/
def Channel.dropOwed (c : Channel) (loc : Loc) (cws : CwSet) : Channel :=
  { c with
    owed := (c.owed.map (fun o => if o.loc = loc then { o with cws := o.cws &&& ~~~cws } else o)).filter
      (fun o => !(decide (o.loc = loc) && decide (o.cws = 0))) }

/-- A demand write marks the codewords it writes superseded on a patrol or focus read in flight at that location (R116). -/
def Channel.markSuperseded (c : Channel) (loc : Loc) (cws : CwSet) : Channel :=
  { c with
    patrol := { c.patrol with
      current := c.patrol.current.map (fun r =>
        if r.loc = loc ∧ r.decoded = false then { r with marks := r.marks ||| cws } else r) } }

/-! ### The Spare Pool (R141, R142) -/

/-- A change of slot state with its effects on the neighbouring blocks (R142): the exhaustion flag is cleared, reads in
flight at the slot offer and owe nothing more, and when the slot becomes FREE or DEFECTIVE its entries and held offers are
dropped. -/
def Channel.setSlot (c : Channel) (slot : SlotId) (st : SlotState) : Channel :=
  let c1 := { c with
    slots := c.slots.set slot.val st
    exhausted := false
    flights := c.flights.map (fun f => if f.loc = .slot slot then { f with moved := true } else f) }
  if st = .allocated then c1 else c1.dropWrites (fun e => e.loc == .slot slot)

/-! ### Migrations -/

/-- Every entry of a held copy UNREAD and not overlaid (R152). -/
def heldUnread : Vector HeldEntry 8 := Vector.replicate 8 { content := .unread, overlaid := false }

/-- A migration as it starts (R149). -/
def Migration.start (line : Nat) (target : SlotId) (source : Loc) : Migration :=
  { line := line, target := target, source := source, phase := .copyRead, inFlight := false
    copyWritten := false, retry := 0, held := none, expected := 0 }

/-- A migration of a record starts on a FREE slot (R149): the slot is allocated, the record enters SPARING and the
Migration Unit becomes busy. -/
def State.startMigration (s : State) (r : Record) (target : SlotId) (clearHold : Bool) : State :=
  (s.modRec r.key.channel r.key.line (fun x => x.enterSparing target clearHold)).modChan r.key.channel (fun c =>
    { (c.setSlot target .allocated) with
      migration := some (Migration.start r.key.line target r.location) })

/-- The states from which a migration may start (R29, R38). -/
def RecState.sparable : RecState → Bool
  | .watch  => true
  | .hot    => true
  | .spared => true
  | _ => false

/-- A candidate for automatic sparing on a channel (R38). -/
def State.isCandidate (s : State) (ch : ChanId) (r : Record) : Bool :=
  decide (r.key.channel = ch) && r.spareWanted && !r.hold &&
    (s.policy (s.classOf r.key.channel r.key.line)).autoSpare && r.state.sparable

/-- Whether a selection takes a before b: higher score, then lower line (R147). -/
def Record.selectsBefore (a b : Record) : Bool :=
  decide (b.score < a.score) || (decide (a.score = b.score) && decide (a.key.line < b.key.line))

/-- A refusal for want of slots (R148). -/
def State.refuseSlots (s : State) (ch : ChanId) : State :=
  if (s.chan ch).exhausted then s
  else (s.raise .spareExhausted).modChan ch (fun c => { c with exhausted := true })

/-- A channel's Migration Unit makes its selection, if it is idle (R147). -/
def State.select (s : State) (ch : ChanId) : State :=
  match (s.chan ch).migration with
  | some _ => s
  | none =>
      match firstBy Record.selectsBefore (s.table.filter (s.isCandidate ch)) with
      | none => s
      | some r =>
          match (s.chan ch).lowestFree with
          | some t => s.startMigration r t false
          | none   => s.refuseSlots ch

/-- The selections of several channels, in order. -/
def State.selectAll (s : State) (chs : List ChanId) : State := chs.foldl State.select s

/-- A read of a migration that has ended (R163). -/
def FlightKind.endMigration : FlightKind → FlightKind
  | .copy _   => .copy true
  | .verify _ => .verify true
  | k => k

/-- A migration ends without a commit: the record returns to its prior state (R32), the held copy is discarded, the unit
becomes idle, and a migration read in flight has outlived its migration (R163). -/
def State.dropMigration (s : State) (ch : ChanId) (m : Migration) (setHold : Bool) : State :=
  (s.modRec ch m.line (fun r => r.leaveSparing setHold)).modChan ch (fun c =>
    { c with
      migration := none
      flights := c.flights.map (fun f => { f with kind := f.kind.endMigration }) })

/-- The end of a channel's migration by host CANCEL, by RETIRE or at SOFT_RESET (R151, R165): its target slot becomes
FREE. The selection that follows is the caller's. -/
def State.cancelMigration (s : State) (ch : ChanId) (setHold : Bool) : State :=
  match (s.chan ch).migration with
  | none   => s
  | some m => (s.dropMigration ch m setHold).modChan ch (fun c => c.setSlot m.target .free)

/-- A migration fails (R161); its last target slot is DEFECTIVE already. -/
def State.failMigration (s : State) (ch : ChanId) (m : Migration) : State :=
  ((s.dropMigration ch m true).raise .migrationFailed).select ch

/-- The retry of a failed verify (R160), its target slot DEFECTIVE already. -/
def State.retryMigration (s : State) (ch : ChanId) (m : Migration) : State :=
  match (s.chan ch).lowestFree with
  | some t =>
      (s.modRec ch m.line (fun r => { r with targetSlot := some t })).modChan ch (fun c =>
        { (c.setSlot t .allocated) with
          migration := some { m with
            target := t, retry := m.retry + 1, phase := .copyRead, inFlight := false
            copyWritten := false, held := none, expected := 0 } })
  | none => (s.refuseSlots ch).failMigration ch m

/-- A failed verify (R160, R161). -/
def State.failVerify (s : State) (ch : ChanId) (m : Migration) : State :=
  let s1 := s.modChan ch (fun c => c.setSlot m.target .defective)
  if m.retry < 2 then s1.retryMigration ch m else s1.failMigration ch m

/-- A passed verify commits the migration (R31, R162): at a re-sparing the old spare slot becomes DEFECTIVE. -/
def State.commitMigration (s : State) (ch : ChanId) (m : Migration) : State :=
  let s1 := (s.modRec ch m.line Record.commit).modChan ch (fun c => { c with migration := none })
  let s2 := match m.source with
    | .slot old => s1.modChan ch (fun c => c.setSlot old .defective)
    | .line _   => s1
  (s2.raise .migrationDone).select ch

/-- Codewords that a write hands to the Migration Unit (R155, R157): placed in the held copy where there is one, overlaid
while the copy read is in flight, disregarded otherwise. -/
def Migration.take (m : Migration) (plan : Vector CwWrite 8) : Migration :=
  let inFlight := decide (m.phase = .copyRead) && m.inFlight
  { m with
    held := m.held.map (fun h => Vector.ofFn (fun i =>
      match plan.get i with
      | .keep   => h.get i
      | .word w => { content := .data (Codeword.data w), overlaid := (h.get i).overlaid || inFlight }
      | .marker => { content := .poison, overlaid := (h.get i).overlaid || inFlight })) }

/-- The Migration Unit of a channel is handed the codewords written to a line; it disregards them when no migration of
that line stands (R157). -/
def Channel.handOver (c : Channel) (line : Nat) (plan : Vector CwWrite 8) : Channel :=
  { c with migration := c.migration.map (fun m => if m.line = line then m.take plan else m) }

/-! ### The redirection answer (R19 to R21) -/

/-- The demand probe of a line (R20): its location, and the target slot of a SPARING record once the copy write has been
issued. -/
def State.probe (s : State) (ch : ChanId) (line : Nat) : Probe :=
  let n := (s.chan ch).demandCount
  match s.rec? ch line with
  | none => { loc := .line line, sparing := false, second := none, retry := 0, count := n }
  | some r =>
      if r.state = .sparing then
        match (s.chan ch).migration with
        | some m =>
            { loc := r.location, sparing := true
              second := if m.copyWritten then r.targetSlot else none, retry := m.retry, count := n }
        | none => { loc := r.location, sparing := true, second := none, retry := 0, count := n }
      else { loc := r.location, sparing := false, second := none, retry := 0, count := n }

/-- The locations that a write reaches. -/
def locations (loc : Loc) (second : Option SlotId) : List Loc :=
  loc :: (match second with | some t => [.slot t] | none => [])

/-- Where a probed write goes at its issue (R86, R157, R160, R161): to its probe's target as well, unless the migration has
begun a later attempt since the probe, when it goes to the source alone. R157 says this for a migration that has been
committed, cancelled or abandoned since the probe. DESIGN CHOICE (log entry 13): a migration that has FAILED since the probe
is treated as a cancelled one, and the write goes to the failed target slot too; R157 does not name the failure. -/
def State.secondAt (s : State) (ch : ChanId) (line : Nat) (p : Probe) : Option SlotId :=
  match (s.chan ch).migration with
  | some m => if p.sparing ∧ m.line = line ∧ p.retry < m.retry then none else p.second
  | none   => p.second

/-- An entry or held offer for one of the locations and codewords that a write reaches (R84, R90, R93, R115). -/
def WbEntry.reached (locs : List Loc) (cws : CwSet) (e : WbEntry) : Bool := locs.contains e.loc && CwSet.has cws e.cw

/-- One location of a demand write at its issue (R86, R88, R90): DRAM is written; owed poison writes for the written codewords
go; a patrol read in flight there is marked; the poison set loses the codewords written full and gains those written with
the marker. -/
def State.writeAt (s : State) (ch : ChanId) (plan : Vector CwWrite 8) (full : CwSet) (loc : Loc) : State :=
  let s1 := s.modChan ch (fun c =>
    ((c.writeLine loc plan).dropOwed loc (writtenSet plan)).markSuperseded loc (writtenSet plan))
  { s1 with table := addPoison (removePoison s1.table ch loc full) ch loc (markerSet plan) }

/-- The issue of a demand write to every location it goes to, at once (R86, R90): entries and held offers for the written
codewords go from all of them, and the offers still held are then offered again. -/
def State.issueWrite (s : State) (ch : ChanId) (line : Nat) (p : Probe) (plan : Vector CwWrite 8) (full : CwSet) :
    State :=
  let locs := locations p.loc (s.secondAt ch line p)
  let s1 := s.modChan ch (fun c => c.dropWrites (WbEntry.reached locs (writtenSet plan)))
  let s2 := locs.foldl (fun t l => t.writeAt ch plan full l) s1
  if p.sparing then s2.modChan ch (fun c => c.handOver line plan) else s2

/-! ### Deliveries and scoring (R22 to R27, R48 to R53) -/

/-- The largest score (R53). -/
def maxScore : Nat := 1023

/-- A CE at position p (R49). -/
def Record.scoreCe (r : Record) (w : Settings) (p : BitPos) : Record :=
  if r.lastBit = some p then
    { r with score := min maxScore (r.score + w.wRepeat), rep := min 255 (r.rep + 1), age := 0 }
  else
    { r with score := min maxScore (r.score + w.wCe), lastBit := some p, rep := 0, age := 0 }

/-- A UE (R50). -/
def Record.scoreUe (r : Record) : Record := { r with score := maxScore, age := 0 }

/-- The threshold evaluation after a CE or UE (R52). -/
def Record.evaluate (r : Record) (p : Policy) : Record :=
  { r with
    state := if r.state = .watch ∧ p.tHot ≤ r.score then .hot else r.state
    spareWanted := r.spareWanted || decide (p.tSpare ≤ r.score) }

/-- Whether a change of spare_wanted gives the Migration Unit the notice of R52. -/
def noticeDue (before after : Record) (p : Policy) : Bool :=
  !before.spareWanted && after.spareWanted && after.state.sparable && p.autoSpare && !after.hold

/-- One event of a delivery applied to a record (R23, R49 to R52), and whether it gave the notice. -/
def Record.applyEvent (r : Record) (w : Settings) (p : Policy) (i : CwIndex) (v : Verdict) : Record × Bool :=
  if r.state = .retired then (r, false)
  else match v with
    | .clean => (r, false)
    | .corrected q => ((r.scoreCe w q).evaluate p, noticeDue r ((r.scoreCe w q).evaluate p) p)
    | .uncorrectable => (r.scoreUe.evaluate p, noticeDue r (r.scoreUe.evaluate p) p)
    | .poison => ({ r with poison := r.poison ||| cwBit i }, false)

/-- The events of a delivery applied in codeword index order (R22, R48). -/
def Record.applyEvents (r : Record) (w : Settings) (p : Policy) (reps : Vector Report 8) : Record × Bool :=
  (List.finRange 8).foldl
    (fun acc i =>
      ((acc.1.applyEvent w p i (reps.get i).verdict).1,
        acc.2 || (acc.1.applyEvent w p i (reps.get i).verdict).2)) (r, false)

/-- Whether a delivery has events (R22). -/
def hasEvents (reps : Vector Report 8) : Bool := (List.finRange 8).any (fun i => (reps.get i).verdict != .clean)

/-- A delivery at the Defect Record Table (R22 to R27): to the record of the key, or to one created for it, or unrecorded
with TABLE_FULL raised. -/
def State.record (s : State) (ch : ChanId) (line : Nat) (src : ReadSource) (reps : Vector Report 8) : State × Bool :=
  let pol := s.policy (s.classOf ch line)
  let key : Key := { channel := ch, line := line }
  match s.rec? ch line with
  | some r =>
      ({ s with table := updateRec s.table key (fun _ => (r.applyEvents s.settings pol reps).1) },
        (r.applyEvents s.settings pol reps).2)
  | none =>
      match makeRoom s.table with
      | some t =>
          let a := (newRecord key (originOf src)).applyEvents s.settings pol reps
          ({ s with table := insertRec t a.1 }, a.2)
      | none => (s.raise .tableFull, false)

/-- A delivery and the selection that a notice of R52 brings about (R22, R147). -/
def State.deliver (s : State) (ch : ChanId) (line : Nat) (src : ReadSource) (reps : Vector Report 8) : State :=
  if hasEvents reps then
    if (s.record ch line src reps).2 then (s.record ch line src reps).1.select ch
    else (s.record ch line src reps).1
  else s

/-! ### Capture (R167 to R174) -/

/-- The largest error count (R172). -/
def maxCount : Nat := 65535

/-- The spare slot that a location names, if it is one (R167). -/
def Loc.slot? : Loc → Option SlotId
  | .slot s => some s
  | .line _ => none

/-- The capture record after one event (R169). -/
def takeCapture (held : Option Capture) (e : Capture) : Option Capture :=
  match held with
  | none => some e
  | some k => if k.outcome = .ce ∧ e.outcome = .ue then some e else some k

/-- One CE or UE handed over to Capture and Alert (R168, R169, R172, R174). -/
def State.captureOne (s : State) (ch : ChanId) (e : Capture) : State :=
  match e.outcome with
  | .ce => s.modChan ch (fun c =>
      { c with capture := takeCapture c.capture e, ceCount := min maxCount (c.ceCount + 1) })
  | .ue => (s.modChan ch (fun c =>
      { c with capture := takeCapture c.capture e, ueCount := min maxCount (c.ueCount + 1) })).raise e.cls.ueCause

/-- The event that a report hands over, if it is a CE or a UE (R168). -/
def captureEvent (src : ReadSource) (line : Nat) (loc : Loc) (tag : Option Byte) (cls : MemClass) (i : CwIndex)
    (rep : Report) : Option Capture :=
  match rep.verdict with
  | .corrected p => some
      { outcome := .ce, source := src, line := line, codeword := i, bit := some p, syndrome := rep.syndrome
        tag := tag, cls := cls, slot := loc.slot? }
  | .uncorrectable => some
      { outcome := .ue, source := src, line := line, codeword := i, bit := none, syndrome := rep.syndrome
        tag := tag, cls := cls, slot := loc.slot? }
  | _ => none

/-- The events of one read handed over in codeword index order (R168). -/
def State.captureRead (s : State) (ch : ChanId) (src : ReadSource) (line : Nat) (loc : Loc) (tag : Option Byte)
    (reps : Vector Report 8) : State :=
  (List.finRange 8).foldl
    (fun t i =>
      match captureEvent src line loc tag (s.classOf ch line) i (reps.get i) with
      | some e => t.captureOne ch e
      | none   => t) s

/-! ### Reads at issue and at decode -/

/-- The issue of a read (R95): it joins the channel's reads in flight, with what DRAM holds at its location. -/
def Channel.issueRead (c : Channel) (ch : ChanId) (kind : FlightKind) (line : Nat) (loc : Loc) : Channel :=
  { c with
    flights := c.flights ++ [{ kind := kind, line := line, loc := loc, words := c.lineAt ch loc, moved := false }] }

/-- The oldest read in flight leaves at its decode (R95: DRAM completes a channel's operations in issue order). -/
def Channel.popFlight (c : Channel) : Channel := { c with flights := c.flights.tail }

/-- A poison write becomes owed, if it covers any codeword (R83, R84). -/
def Channel.owe (c : Channel) (line : Nat) (loc : Loc) (cws : CwSet) (owner : OwedBy) : Channel :=
  if cws = 0 then c else { c with owed := c.owed ++ [{ line := line, loc := loc, cws := cws, owner := owner }] }

/-- The offers of a read's corrections, in codeword index order, for the codewords that a test admits (R83, R111). -/
def offersOf (loc : Loc) (reps : Vector Report 8) (takes : CwIndex → Bool) : List WbEntry :=
  (List.finRange 8).filterMap (fun i =>
    if takes i then (reps.get i).fixed.map (fun w => { loc := loc, cw := i, content := w }) else none)

/-- The place of a request in its queue, changed. -/
def Channel.setStage (c : Channel) (seq : Nat) (st : Stage) : Channel :=
  { c with queue := c.queue.map (fun q => if q.seq = seq then { q with stage := st } else q) }

/-- An operation that is not a demand operation sets the consecutive-demand count to 0 (R97). -/
def Channel.clearDemand (c : Channel) : Channel := { c with demandCount := 0 }

/-- A demand operation adds 1 to the consecutive-demand count, up to 8, while the Write-back Queue holds an entry, and
leaves it at 0 while the queue is empty (R97). -/
def Channel.countDemand (c : Channel) : Channel :=
  { c with demandCount := if c.wbq.isEmpty then 0 else min 8 (c.demandCount + 1) }

/-- The write of a merge read is counted as any demand operation is, but for one whose merge read was issued at count 7 (R97;
log entry 26). -/
def Channel.countMergeWrite (c : Channel) (p : Probe) : Channel :=
  { c with demandCount := if p.count = 7 then c.demandCount else c.countDemand.demandCount }

/-- A maintenance read costs 1 unit of budget (R98). -/
def Channel.spend (c : Channel) : Channel := { c with budget := c.budget - 1 }

/-- An operation that needs the given locations of a channel to lie in its DRAM. -/
def State.atLines (s : State) (ch : ChanId) (locs : List Loc) (next : State) : Host.Outcome State Fault Refusal :=
  if locs.all (s.chan ch).inDram then .next next else .fault .noSuchLine

end Sys2Proof.Machine
end

