-- ==== Sys2Proof/Machine/Arbiter.lean ====
section
/-! DEFINITION. The Channel Arbiter: which operation a channel issues next (R72, R75, R81, R84, R87, R94, R96, R97), and the
demand queue as it sees it. -/

namespace Sys2Proof.Machine

/-- How a write divides a codeword by its mask bits (R85). -/
inductive CwKind where
  | full | partly | untouched
  deriving DecidableEq, Repr

/-- The kind of codeword i under a mask (R85). -/
def cwKind (mask : BitVec 64) (i : CwIndex) : CwKind :=
  if maskOf mask i = 0xFF then .full else if maskOf mask i = 0 then .untouched else .partly

/-- The codewords that a mask covers fully. -/
def fullSet (mask : BitVec 64) : CwSet := cwSetOf (fun i => cwKind mask i == .full)

/-- Whether a mask covers some codeword partly, so that the write needs a merge read (R87). -/
def needsMerge (mask : BitVec 64) : Bool := (List.finRange 8).any (fun i => cwKind mask i == .partly)

/-- Whether a place of the queue has passed the arbiter: refused, an empty write, a read issued or a write issued. The head
(R81) is the first that has not. -/
def QEntry.passed (q : QEntry) : Bool :=
  match q.stage, q.req.kind with
  | .refused _, _ => true
  | .readIssued, _ => true
  | .readDone _ _ _, _ => true
  | .written _, _ => true
  | .waiting, .write _ m => decide (m = 0)
  | _, _ => false

/-- The request at the head of a channel's queue (R81). -/
def Channel.head (c : Channel) : Option QEntry := c.queue.find? (fun q => !q.passed)

/-- Reads that hold back a demand write to their location (R81). -/
def FlightKind.holdsWrites : FlightKind → Bool
  | .demand _ => true
  | .merge _  => true
  | _ => false

/-- Poison writes that hold back a demand write to their location (R81): those owed by demand reads. -/
def OwedBy.holdsWrites : OwedBy → Bool
  | .demand _ => true
  | _ => false

/-- Whether a write that would reach the given locations waits at the head (R81). -/
def Channel.writeWaits (c : Channel) (locs : List Loc) : Bool :=
  c.flights.any (fun f => f.kind.holdsWrites && locs.contains f.loc) ||
    c.owed.any (fun o => o.owner.holdsWrites && locs.contains o.loc)

/-- The operations of an arbiter: R96's list, with fill writes. -/
inductive Op where
  | fillWrite | poisonWrite | demandRead | demandWrite | mergeRead | mergeWrite
  | writeBack | copyRead | copyWrite | verifyRead | patrolStep
  deriving DecidableEq, Repr

/-- The demand operation the head waits for, if it is not held back (R81, R86, R87). -/
def State.demandOp (s : State) (ch : ChanId) : Option Op :=
  match (s.chan ch).head with
  | none => none
  | some q =>
      match q.stage, q.req.kind with
      | .waiting, .read => some .demandRead
      | .waiting, .write _ m =>
          if (s.chan ch).writeWaits (locations (s.probe ch q.req.line).loc (s.probe ch q.req.line).second) then none
          else if needsMerge m then some .mergeRead else some .demandWrite
      | _, _ => none

/-- The operation the Migration Unit waits for, if it is eligible (R153, R156, R159). -/
def Channel.migrationOp (c : Channel) : Option Op :=
  match c.migration with
  | none => none
  | some m =>
      match m.phase with
      | .copyRead   => if m.inFlight = false ∧ 1 ≤ c.budget then some .copyRead else none
      | .copyWrite  => some .copyWrite
      | .verifyRead => if m.inFlight = false ∧ 1 ≤ c.budget then some .verifyRead else none

/-- Whether the Patrol Engine may take an issue step, budget included (R106). -/
def Channel.patrolReady (c : Channel) : Bool :=
  decide (c.patrol.state = .running) && c.patrol.current.isNone && !c.patrol.startWait && decide (1 ≤ c.budget)

/-- The hold of a merge read (R84, R87): nothing until its decode, then its write. -/
def Channel.mergeHold (c : Channel) : Option (Option Op) :=
  match c.head with
  | some q =>
      match q.stage with
      | .mergeIssued _ => some none
      | .mergeDecoded _ _ _ => some (some .mergeWrite)
      | _ => none
  | none => none

/-- Steps 3 to 5 of R96. -/
def Channel.maintenanceOp (c : Channel) : Option Op :=
  if c.wbNext.isSome then some .writeBack
  else match c.migrationOp with
    | some o => some o
    | none   => if c.patrolReady then some .patrolStep else none

/-- Whether the demand step yields to a write-back (R96, R97). -/
def Channel.demandYields (c : Channel) : Bool := decide (c.demandCount = 8) && c.wbNext.isSome

/-- The operation that the arbiter of a channel issues next, if any is waiting and eligible (R96). -/
def State.nextOp (s : State) (ch : ChanId) : Option Op :=
  match (s.chan ch).state with
  | .initializing => if (s.chan ch).fillProgress < (s.chan ch).physLines then some .fillWrite else none
  | .disabled => if (s.chan ch).wbNext.isSome then some .writeBack else none
  | .online =>
      match (s.chan ch).mergeHold with
      | some o => o
      | none =>
          if !(s.chan ch).owed.isEmpty then some .poisonWrite
          else if (s.chan ch).demandYields then some .writeBack
          else match s.demandOp ch with
            | some o => some o
            | none   => (s.chan ch).maintenanceOp

end Sys2Proof.Machine
end

