-- ==== Sys2Proof/Machine/Demand.lean ====
section
/-! DEFINITION. The demand path's commands: requests, responses, demand reads, writes, merge reads, owed poison writes,
write-backs and fill writes (R72 to R98). A row whose operation the arbiter would not issue now, or whose read is not the
next to complete, issues nothing and changes nothing (log entry 4). -/

namespace Sys2Proof.Machine

/-! ### Requests and responses -/

/-- The stage in which a request joins its queue: the arrival checks, in order (R79). -/
def arrivalStage (c : Channel) (line : Nat) : Stage :=
  if c.state ≠ .online then .refused .notReady
  else if c.visible ≤ line then .refused .address
  else .waiting

/-- REQUEST_ARRIVAL (R78, R79, R202). -/
def execRequestArrival (ch : ChanId) (req : Request) (s : State) : Host.Outcome State Fault Refusal :=
  if s.resetAsserted then .next s
  else if (s.chan ch).credits = 0 then .next (s.raise .protocol)
  else .next (s.modChan ch (fun c =>
    { c with
      credits := c.credits - 1
      nextSeq := c.nextSeq + 1
      queue := c.queue ++ [{ seq := c.nextSeq, req := req, stage := arrivalStage c req.line }] }))

/-- The response of a request whose own work is done, if it is (R80). -/
def Channel.responseOf (c : Channel) (q : QEntry) : Option DemandResponse :=
  match q.stage, q.req.kind with
  | .refused reason, _ => some (.refused q.req.tag reason)
  | .readDone o d m, _ =>
      if c.owed.any (fun w => w.owner == .demand q.seq) then none else some (.readData q.req.tag o d m)
  | .written o, _ => some (.writeDone q.req.tag o)
  | .waiting, .write _ mask => if mask = 0 then some (.writeDone q.req.tag .done) else none
  | _, _ => none

/-- RESPONSE_DEPARTURE (R80): the oldest request's response leaves, once its work is done. -/
def execResponseDeparture (ch : ChanId) (s : State) : Host.Outcome State Fault Refusal :=
  match (s.chan ch).queue with
  | [] => .next s
  | q :: rest =>
      match (s.chan ch).responseOf q with
      | none => .next s
      | some r => .next (s.modChan ch (fun c =>
          { c with queue := rest, credits := c.credits + 1, response := some r }))

/-! ### Demand reads -/

/-- DEMAND_READ_ISSUE (R81). -/
def execDemandReadIssue (ch : ChanId) (s : State) : Host.Outcome State Fault Refusal :=
  match s.nextOp ch, (s.chan ch).head with
  | some .demandRead, some q =>
      let p := s.probe ch q.req.line
      s.atLines ch [p.loc] (s.modChan ch (fun c =>
        ((c.countDemand).issueRead ch (.demand q.seq) q.req.line p.loc).setStage q.seq .readIssued))
  | _, _ => .next s

/-- The bytes of READ_DATA for one codeword: the decoded data, or zero where it is lost (R82). -/
def responseData (r : Report) : Data := if r.verdict.isLost then 0 else r.data

/-- The outcome of READ_DATA: the worst over the eight codewords (R82). -/
def readOutcome (reps : Vector Report 8) : ReadOutcome :=
  if (List.finRange 8).any (fun i => (reps.get i).verdict.isLost) then .poison
  else if (List.finRange 8).any (fun i => (reps.get i).verdict.isCe) then .corrected
  else .clean

/-- The READ_DATA contents of a decoded demand read (R82). -/
def readStage (reps : Vector Report 8) : Stage :=
  .readDone (readOutcome reps) (lineOf (fun i => responseData (reps.get i))) (cwsWhere reps Verdict.isLost)

/-- The UNCORRECTABLE codewords of a read. -/
def ueSet (reps : Vector Report 8) : CwSet := cwsWhere reps (· == .uncorrectable)

/-- Whether a read has a POISON outcome. -/
def anyPoison (reps : Vector Report 8) : Bool := (List.finRange 8).any (fun i => (reps.get i).verdict == .poison)

/-- Several offers of origin DEMAND, in order (R83). -/
def Channel.offerDemands (c : Channel) (es : List WbEntry) : Channel := es.foldl Channel.offerDemand c

/-- What a demand read's decode does beyond the table: the response's contents, the write-back offers where the class has
demand write-back, and the poison write owed; none of the last two for a slot that has changed state (R83, R142). -/
def Channel.demandDecoded (c : Channel) (q : QEntry) (f : Flight) (writeBack : Bool) (reps : Vector Report 8) :
    Channel :=
  let c1 := c.setStage q.seq (readStage reps)
  if f.moved then c1
  else (c1.offerDemands (if writeBack then offersOf f.loc reps (fun _ => true) else [])).owe q.req.line f.loc
    (ueSet reps) (.demand q.seq)

/-- The queue place that a number names. -/
def Channel.place (c : Channel) (seq : Nat) : Option QEntry := c.queue.find? (fun q => q.seq == seq)

/-- The completion of a demand read's decode (R82, R83). -/
def State.demandDecode (s : State) (ch : ChanId) (q : QEntry) (f : Flight) (reps : Vector Report 8) : State :=
  let wb := (s.policy (s.classOf ch q.req.line)).demandWb
  let s1 := s.captureRead ch .demandRead q.req.line f.loc (some q.req.tag) reps
  let s2 := if anyPoison reps then s1.raise .poisonRead else s1
  (s2.modChan ch (fun c => c.popFlight.demandDecoded q f wb reps)).deliver ch q.req.line .demandRead reps

/-- DEMAND_READ_DECODE (R82, R83), of the oldest read in flight on the channel. -/
def execDemandReadDecode (ch : ChanId) (upsets : LineWords) (s : State) : Host.Outcome State Fault Refusal :=
  match (s.chan ch).flights with
  | f :: _ =>
      match f.kind with
      | .demand seq =>
          match (s.chan ch).place seq with
          | some q => .next (s.demandDecode ch q f (reportsOf f.words upsets))
          | none   => .next s
      | _ => .next s
  | [] => .next s

/-! ### Writes -/

/-- The plan of a write with no partial codeword: each full codeword encoded from the request's bytes (R86). -/
def fullPlan (data : LineData) (mask : BitVec 64) : Vector CwWrite 8 :=
  Vector.ofFn (fun i =>
    if cwKind mask i = .full then .word (encode (LineData.codeword data i)) else .keep)

/-- DEMAND_WRITE_ISSUE (R86, R90): probed, taken and issued in one step. -/
def execDemandWriteIssue (ch : ChanId) (s : State) : Host.Outcome State Fault Refusal :=
  match s.nextOp ch, (s.chan ch).head with
  | some .demandWrite, some q =>
      match q.req.kind with
      | .write data mask =>
          let p := s.probe ch q.req.line
          s.atLines ch (locations p.loc (s.secondAt ch q.req.line p))
            (((s.modChan ch (fun c => c.countDemand)).issueWrite ch q.req.line p (fullPlan data mask)
              (fullSet mask)).modChan ch (fun c => c.setStage q.seq (.written .done)))
      | .read => .next s
  | _, _ => .next s

/-- MERGE_READ_ISSUE (R87). -/
def execMergeReadIssue (ch : ChanId) (s : State) : Host.Outcome State Fault Refusal :=
  match s.nextOp ch, (s.chan ch).head with
  | some .mergeRead, some q =>
      let p := s.probe ch q.req.line
      s.atLines ch [p.loc] (s.modChan ch (fun c =>
        ((c.countDemand).issueRead ch (.merge q.seq) q.req.line p.loc).setStage q.seq (.mergeIssued p)))
  | _, _ => .next s

/-- What the write after a merge read writes to one codeword (R88). -/
def mergeWriteOf (data : LineData) (mask : BitVec 64) (writeBack : Bool) (reps : Vector Report 8) (i : CwIndex) :
    CwWrite :=
  match cwKind mask i with
  | .full => .word (encode (LineData.codeword data i))
  | .partly =>
      if (reps.get i).verdict.isLost then .marker
      else .word (encode (mergeBytes (maskOf mask i) (reps.get i).data (LineData.codeword data i)))
  | .untouched =>
      match (reps.get i).verdict, (reps.get i).fixed with
      | .corrected _, some w => if writeBack then .word w else .keep
      | .uncorrectable, _ => .marker
      | _, _ => .keep

/-- The plan of the write after a merge read (R88). -/
def mergePlan (data : LineData) (mask : BitVec 64) (writeBack : Bool) (reps : Vector Report 8) : Vector CwWrite 8 :=
  Vector.ofFn (mergeWriteOf data mask writeBack reps)

/-- The outcome of a write that had a merge read, judged over the codewords that are not full (R89). -/
def mergeOutcome (mask : BitVec 64) (reps : Vector Report 8) : WriteOutcome :=
  if (List.finRange 8).any (fun i => cwKind mask i != .full && (reps.get i).verdict.isLost) then .poisonKept
  else if (List.finRange 8).any (fun i => cwKind mask i != .full && (reps.get i).verdict.isCe) then .doneCorrected
  else .done

/-- The completion of a merge read's decode (R87 to R89). -/
def State.mergeDecode (s : State) (ch : ChanId) (q : QEntry) (p : Probe) (data : LineData) (mask : BitVec 64)
    (f : Flight) (reps : Vector Report 8) : State :=
  let wb := (s.policy (s.classOf ch q.req.line)).demandWb
  let s1 := s.captureRead ch .demandMerge q.req.line f.loc (some q.req.tag) reps
  (s1.modChan ch (fun c => c.popFlight.setStage q.seq
    (.mergeDecoded p (mergePlan data mask wb reps) (mergeOutcome mask reps)))).deliver ch q.req.line .demandMerge reps

/-- MERGE_READ_DECODE (R87), of the oldest read in flight on the channel. -/
def execMergeReadDecode (ch : ChanId) (upsets : LineWords) (s : State) : Host.Outcome State Fault Refusal :=
  match (s.chan ch).flights with
  | f :: _ =>
      match f.kind with
      | .merge seq =>
          match (s.chan ch).place seq with
          | some q =>
              match q.stage, q.req.kind with
              | .mergeIssued p, .write data mask =>
                  .next (s.mergeDecode ch q p data mask f (reportsOf f.words upsets))
              | _, _ => .next s
          | none => .next s
      | _ => .next s
  | [] => .next s

/-- MERGE_WRITE_ISSUE (R88, R90). The write is a demand operation and is counted as one, unless its merge read was issued at
count 7 (R97). -/
def execMergeWriteIssue (ch : ChanId) (s : State) : Host.Outcome State Fault Refusal :=
  match s.nextOp ch, (s.chan ch).head with
  | some .mergeWrite, some q =>
      match q.stage, q.req.kind with
      | .mergeDecoded p plan outcome, .write _ mask =>
          s.atLines ch (locations p.loc (s.secondAt ch q.req.line p))
            (((s.modChan ch (fun c => c.countMergeWrite p)).issueWrite ch q.req.line p plan (fullSet mask)).modChan ch
              (fun c => c.setStage q.seq (.written outcome)))
      | _, _ => .next s
  | _, _ => .next s

/-! ### Poison writes, write-backs and fill writes -/

/-- Whether an owed poison write reaches the channel's migration: its key's record is SPARING and its location is the
migration's source (R84). -/
def State.reachesMigration (s : State) (ch : ChanId) (o : Owed) : Bool :=
  match s.rec? ch o.line, (s.chan ch).migration with
  | some r, some m => decide (r.state = .sparing) && decide (m.line = o.line) && decide (m.source = o.loc)
  | _, _ => false

/-- The target slot that an owed poison write also goes to: once the copy write has been issued (R84, R157). -/
def State.poisonSecond (s : State) (ch : ChanId) (o : Owed) : Option SlotId :=
  match (s.chan ch).migration with
  | some m => if s.reachesMigration ch o ∧ m.copyWritten then some m.target else none
  | none   => none

/-- One location of a poison write at its issue (R84): the marker is written, and the table is notified. -/
def State.poisonAt (s : State) (ch : ChanId) (cws : CwSet) (loc : Loc) : State :=
  let s1 := s.modChan ch (fun c => c.writeLine loc (poisonPlan cws))
  { s1 with table := addPoison s1.table ch loc cws }

/-- The issue of an owed poison write, to every location it goes to at once (R84); entries and held offers for its codewords
go from all of them (R93, R115). -/
def State.issuePoison (s : State) (ch : ChanId) (o : Owed) : State :=
  let locs := locations o.loc (s.poisonSecond ch o)
  let s1 := s.modChan ch (fun c =>
    Channel.dropWrites { c.clearDemand with owed := c.owed.tail } (WbEntry.reached locs o.cws))
  let s2 := locs.foldl (fun t l => t.poisonAt ch o.cws l) s1
  if s.reachesMigration ch o then s2.modChan ch (fun c => c.handOver o.line (poisonPlan o.cws)) else s2

/-- POISON_WRITE_ISSUE (R84), of the oldest poison write owed. -/
def execPoisonWriteIssue (ch : ChanId) (s : State) : Host.Outcome State Fault Refusal :=
  match s.nextOp ch, (s.chan ch).owed with
  | some .poisonWrite, o :: _ =>
      s.atLines ch (locations o.loc (s.poisonSecond ch o)) (s.issuePoison ch o)
  | _, _ => .next s

/-- The plan of a write-back: one codeword as the entry holds it, not encoded again (R5, R94). -/
def writeBackPlan (e : WbEntry) : Vector CwWrite 8 :=
  Vector.ofFn (fun i => if i = e.cw then .word e.content else .keep)

/-- The issue of a Write-back Queue entry (R94): it leaves the queue, and its codeword leaves the poison set. -/
def State.issueWriteBack (s : State) (ch : ChanId) (e : WbEntry) : State :=
  let s1 := s.modChan ch (fun c =>
    Channel.reoffer (((c.clearDemand).writeLine e.loc (writeBackPlan e)).setWbq (c.wbq.erase e)))
  { s1 with table := removePoison s1.table ch e.loc (cwBit e.cw) }

/-- WRITE_BACK_ISSUE (R94), of the oldest eligible entry. -/
def execWriteBackIssue (ch : ChanId) (s : State) : Host.Outcome State Fault Refusal :=
  match s.nextOp ch, (s.chan ch).wbNext with
  | some .writeBack, some e => s.atLines ch [e.loc] (s.issueWriteBack ch e)
  | _, _ => .next s

/-- The plan of a fill write: zero data with check byte 0x00 in all eight codewords (R5, R75). -/
def fillPlan : Vector CwWrite 8 := Vector.replicate 8 (.word (encode 0))

/-- The issue of a channel's next fill write (R75): the last one completes the fill. -/
def Channel.fillStep (c : Channel) : Channel :=
  { (c.clearDemand).writeLine (.line c.fillProgress) fillPlan with
    fillProgress := c.fillProgress + 1
    state := if c.fillProgress + 1 = c.physLines then .online else c.state }

/-- FILL_WRITE_ISSUE (R75). -/
def execFillWriteIssue (ch : ChanId) (s : State) : Host.Outcome State Fault Refusal :=
  match s.nextOp ch with
  | some .fillWrite =>
      let s1 := s.modChan ch Channel.fillStep
      s.atLines ch [.line (s.chan ch).fillProgress]
        (if (s.chan ch).fillProgress + 1 = (s.chan ch).physLines then s1.raise .channelReady else s1)
  | _ => .next s

end Sys2Proof.Machine
end

