-- ==== Sys2Proof/Machine/Migrate.lean ====
section
/-! DEFINITION. The Migration Unit's operations and the completions of its reads (R152 to R163). -/

namespace Sys2Proof.Machine

/-- COPY_READ_ISSUE (R153): the migration probe confirms the source, the held copy is created, and a unit of budget is
spent. -/
def execCopyReadIssue (ch : ChanId) (s : State) : Host.Outcome State Fault Refusal :=
  match s.nextOp ch, (s.chan ch).migration with
  | some .copyRead, some m =>
      s.atLines ch [m.source] (s.modChan ch (fun c =>
        { (c.clearDemand.spend).issueRead ch (.copy false) m.line m.source with
          migration := some { m with inFlight := true, held := some heldUnread } }))
  | _, _ => .next s

/-- A held copy entry filled from a codeword's report, unless it is overlaid (R154). -/
def HeldEntry.fill (h : HeldEntry) (r : Report) : HeldEntry :=
  if h.overlaid then h
  else { h with content := if r.verdict.isLost then .poison else .data r.data }

/-- A held copy filled from a copy read's reports (R154). -/
def fillHeld (h : Vector HeldEntry 8) (reps : Vector Report 8) : Vector HeldEntry 8 :=
  Vector.ofFn (fun i => (h.get i).fill (reps.get i))

/-- The codewords that owe a poison write after a copy read: UNCORRECTABLE and not overlaid (R154). -/
def copyOwes (h : Vector HeldEntry 8) (reps : Vector Report 8) : CwSet :=
  cwSetOf (fun i => (reps.get i).verdict == .uncorrectable && !(h.get i).overlaid)

/-- The delivery and capture that every migration read makes at its decode, whatever has become of its migration (R154,
R159, R163). -/
def State.migrationReports (s : State) (ch : ChanId) (f : Flight) (reps : Vector Report 8) : State :=
  ((s.captureRead ch .migration f.line f.loc none reps).modChan ch Channel.popFlight).deliver ch f.line .migration reps

/-- The completion of a standing migration's copy read (R154): the held copy is filled, a poison write may be owed to the
source, and the phase becomes COPY_WRITE. -/
def State.copyDecode (s : State) (ch : ChanId) (m : Migration) (f : Flight) (reps : Vector Report 8) : State :=
  let h := m.held.getD heldUnread
  (s.migrationReports ch f reps).modChan ch (fun c =>
    { (if f.moved then c else c.owe f.line f.loc (copyOwes h reps) .migration) with
      migration := some { m with phase := .copyWrite, inFlight := false, held := some (fillHeld h reps) } })

/-- COPY_READ_DECODE (R154, R163), of the oldest read in flight on the channel. -/
def execCopyReadDecode (ch : ChanId) (upsets : LineWords) (s : State) : Host.Outcome State Fault Refusal :=
  match (s.chan ch).flights with
  | f :: _ =>
      match f.kind, (s.chan ch).migration with
      | .copy false, some m => .next (s.copyDecode ch m f (reportsOf f.words upsets))
      | .copy _, _ => .next (s.migrationReports ch f (reportsOf f.words upsets))
      | _, _ => .next s
  | [] => .next s

/-- What the copy write writes for a held copy entry (R156). -/
def HeldContent.toWrite : HeldContent → CwWrite
  | .unread => .keep
  | .data d => .word (encode d)
  | .poison => .marker

/-- The plan of a copy write (R156). -/
def copyPlan (h : Vector HeldEntry 8) : Vector CwWrite 8 := Vector.ofFn (fun i => (h.get i).content.toWrite)

/-- COPY_WRITE_ISSUE (R156). -/
def execCopyWriteIssue (ch : ChanId) (s : State) : Host.Outcome State Fault Refusal :=
  match s.nextOp ch, (s.chan ch).migration with
  | some .copyWrite, some m =>
      s.atLines ch [.slot m.target] (s.modChan ch (fun c =>
        { c.clearDemand.writeLine (.slot m.target) (copyPlan (m.held.getD heldUnread)) with
          migration := some { m with copyWritten := true, phase := .verifyRead, inFlight := false } }))
  | _, _ => .next s

/-- The codewords whose held copy entry is POISON (R159). -/
def heldPoison (h : Vector HeldEntry 8) : CwSet := cwSetOf (fun i => (h.get i).content == .poison)

/-- VERIFY_READ_ISSUE (R159). -/
def execVerifyReadIssue (ch : ChanId) (s : State) : Host.Outcome State Fault Refusal :=
  match s.nextOp ch, (s.chan ch).migration with
  | some .verifyRead, some m =>
      s.atLines ch [.slot m.target] (s.modChan ch (fun c =>
        { (c.clearDemand.spend).issueRead ch (.verify false) m.line (.slot m.target) with
          migration := some { m with inFlight := true, expected := heldPoison (m.held.getD heldUnread) } }))
  | _, _ => .next s

/-- Whether a verify passes: every expected codeword POISON, every other CLEAN (R159). -/
def verifyPasses (expected : CwSet) (reps : Vector Report 8) : Bool :=
  (List.finRange 8).all (fun i =>
    (reps.get i).verdict == (if CwSet.has expected i then .poison else .clean))

/-- The completion of a standing migration's verify read: the delivery, then the judgement (R159 to R162). -/
def State.verifyDecode (s : State) (ch : ChanId) (m : Migration) (f : Flight) (reps : Vector Report 8) : State :=
  if verifyPasses m.expected reps then (s.migrationReports ch f reps).commitMigration ch m
  else (s.migrationReports ch f reps).failVerify ch m

/-- VERIFY_READ_DECODE (R159, R163), of the oldest read in flight on the channel. -/
def execVerifyReadDecode (ch : ChanId) (upsets : LineWords) (s : State) : Host.Outcome State Fault Refusal :=
  match (s.chan ch).flights with
  | f :: _ =>
      match f.kind, (s.chan ch).migration with
      | .verify false, some m => .next (s.verifyDecode ch m f (reportsOf f.words upsets))
      | .verify _, _ => .next (s.migrationReports ch f (reportsOf f.words upsets))
      | _, _ => .next s
  | [] => .next s

end Sys2Proof.Machine
end

