-- ==== Sys2Proof/Machine/Patrol.lean ====
section
/-! DEFINITION. The Patrol Engine: the walk, pass ends and decay, issue steps, and the handling of its reads (R54 to R57,
R99 to R123). -/

namespace Sys2Proof.Machine

/-- Changes a channel's Patrol Engine. -/
def Channel.modPatrol (c : Channel) (f : PatrolEngine → PatrolEngine) : Channel := { c with patrol := f c.patrol }

/-! ### Decay at pass end (R54 to R57) -/

/-- The records that a decay covers (R54). -/
def RecState.decays : RecState → Bool
  | .watch  => true
  | .hot    => true
  | .spared => true
  | _ => false

/-- The score after one decay (R55): never below 0. -/
def decayScore (shift score : Nat) : Nat := if score = 0 then 0 else score - (score / 2 ^ shift + 1)

/-- A record after the decay's arithmetic and its thresholds (R55, R56). -/
def Record.decay (r : Record) (shift : Nat) (p : Policy) : Record :=
  { r with
    score := decayScore shift r.score
    age := min 255 (r.age + 1)
    state := if r.state = .hot ∧ decayScore shift r.score < p.tHot / 2 then .watch else r.state
    spareWanted := r.spareWanted && decide (p.tSpare ≤ decayScore shift r.score) }

/-- Whether a decayed record is removed (R57). -/
def Record.fades (r : Record) : Bool :=
  decide (r.state = .watch) && decide (r.score = 0) && !r.pinned && decide (r.poison = 0)

/-- What the decay of a channel leaves of one record (R54 to R57). -/
def State.decayRecord (s : State) (ch : ChanId) (r : Record) : Option Record :=
  if r.key.channel = ch ∧ r.state.decays = true then
    let d := r.decay s.settings.decayShift (s.policy (s.classOf r.key.channel r.key.line))
    if d.fades then none else some d
  else some r

/-- The decay of a channel's records, taken at the table as one step (R54). -/
def State.decay (s : State) (ch : ChanId) : State := { s with table := s.table.filterMap (s.decayRecord ch) }

/-! ### The walk -/

/-- The engine after a pass end (R108): what follows depends on its state and mode. -/
def PatrolEngine.endPass (p : PatrolEngine) : PatrolEngine :=
  { p with
    position := 0
    pass := (p.pass + 1) % 65536
    state := match p.state, p.mode with
      | .running, .single => .done
      | .halting, .single => .done
      | .halting, .continuous => .idle
      | st, _ => st
    startWait := match p.state, p.mode with
      | .running, .continuous => true
      | _, _ => p.startWait }

/-- A pass end (R108): the records decay, and a SINGLE pass raises PASS_DONE. -/
def State.endPass (s : State) (ch : ChanId) : State :=
  let s1 := (s.decay ch).modChan ch (fun c => c.modPatrol PatrolEngine.endPass)
  if (s.chan ch).patrol.mode = .single then s1.raise .passDone else s1

/-- The engine comes to a line (R105): unpatrolled lines are passed over, to the first patrolled line or the pass end. -/
def State.comeTo (s : State) (ch : ChanId) (line : Nat) : State :=
  match nextPatrolled s.windows ch (s.chan ch).visible line with
  | some l => s.modChan ch (fun c => c.modPatrol (fun p => { p with position := l }))
  | none   => s.endPass ch

/-! ### Issue steps (R106, R119) -/

/-- The engine issues a patrol or focus read (R106, R119). -/
def Channel.issuePatrol (c : Channel) (ch : ChanId) (kind : PatrolKind) (line : Nat) (loc : Loc) : Channel :=
  (((c.clearDemand).spend).issueRead ch .patrol line loc).modPatrol (fun p =>
    { p with
      current := some
        { kind := kind, line := line, loc := loc, marks := 0, decoded := false, acrossReset := false } })

/-- The lines of the HOT records that a focus read may take on a channel (R119). -/
def State.focusLines (s : State) (ch : ChanId) : List Nat :=
  (s.table.filter (fun r =>
    decide (r.key.channel = ch) && decide (r.state = .hot) && (s.classOf r.key.channel r.key.line).patrolled)).map
    (fun r => r.key.line)

/-- The line the next focus read takes: the smallest above the cursor, else the smallest of all (R119). -/
def focusPick (cursor : Option Nat) (lines : List Nat) : Option Nat :=
  match cursor with
  | none   => lines.min?
  | some k =>
      match (lines.filter (fun l => decide (k < l))).min? with
      | some l => some l
      | none   => lines.min?

/-- Whether a focus read is due (R119). -/
def State.focusDue (s : State) (ch : ChanId) : Bool :=
  decide (s.settings.focusInterval ≠ 0) && decide (s.settings.focusInterval ≤ (s.chan ch).patrol.focusCount)

/-- Where a patrol read of a line is made: at the spare slot of a SPARED record, else at the line (R106). -/
def State.patrolLoc (s : State) (ch : ChanId) (line : Nat) : Loc :=
  match s.rec? ch line with
  | some r => r.location
  | none   => .line line

/-- The line that the ordinary part of an issue step reads: the ready line unless its record makes the patrol skip it, then
the first readable line above it; none when the skips reach the end of the pass (R106). -/
def State.readTarget (s : State) (ch : ChanId) : Option Nat :=
  let p := (s.chan ch).patrol.position
  if lineSkipped s.table ch p then nextReadable s.windows s.table ch (s.chan ch).visible (p + 1) else some p

/-- The focus count after an ordinary read's issue (R106). -/
def countFocus (interval count : Nat) : Nat := if interval = 0 then count else min 64 (count + 1)

/-- The ordinary part of an issue step (R106). -/
def State.ordinaryStep (s : State) (ch : ChanId) : Host.Outcome State Fault Refusal :=
  match s.readTarget ch with
  | some l =>
      s.atLines ch [s.patrolLoc ch l] (s.modChan ch (fun c =>
        (c.modPatrol (fun p =>
          { p with position := l, focusCount := countFocus s.settings.focusInterval p.focusCount })).issuePatrol
          ch .ordinary l (s.patrolLoc ch l)))
  | none => .next (s.endPass ch)

/-- PATROL_ISSUE_STEP (R106, R119): a focus read when one is due and a HOT record qualifies; otherwise the ready line. -/
def execPatrolIssueStep (ch : ChanId) (s : State) : Host.Outcome State Fault Refusal :=
  match s.nextOp ch with
  | some .patrolStep =>
      if s.focusDue ch then
        match focusPick (s.chan ch).patrol.focusCursor (s.focusLines ch) with
        | some l =>
            s.atLines ch [.line l] (s.modChan ch (fun c =>
              (c.modPatrol (fun p => { p with focusCursor := some l, focusCount := 0 })).issuePatrol ch .focus l
                (.line l)))
        | none => (s.modChan ch (fun c => c.modPatrol (fun p => { p with focusCount := 0 }))).ordinaryStep ch
      else s.ordinaryStep ch
  | _ => .next s

/-! ### The decode of a patrol or focus read (R110 to R117) -/

/-- The source that a patrol read's kind gives (R110). -/
def PatrolKind.source : PatrolKind → ReadSource
  | .ordinary => .patrol
  | .focus    => .focus

/-- Whether the corrections and poison of a patrol read are let through as a whole: not when the table reported the record
RETIRED, nor when the location is a spare slot that is not ALLOCATED or has changed state since the issue (R111, R112). -/
def Channel.patrolAdmits (c : Channel) (f : Flight) (retired : Bool) : Bool :=
  !retired && !f.moved &&
    (match f.loc with
     | .slot sl => c.slots.get sl == .allocated
     | .line _  => true)

/-- What a patrol read's decode does beyond the table (R111, R112, R117): offers and an owed poison write for the codewords
that are not superseded, where the read is let through. -/
def Channel.patrolDecoded (c : Channel) (r : PatrolRead) (f : Flight) (retired : Bool) (reps : Vector Report 8) :
    Channel :=
  let takes := fun i : CwIndex => c.patrolAdmits f retired && !CwSet.has r.marks i
  let c1 := c.modPatrol (fun p => { p with current := some { r with decoded := true } })
  (c1.offerPatrol (offersOf f.loc reps takes)).owe r.line f.loc
    (cwSetOf (fun i => takes i && (reps.get i).verdict == .uncorrectable)) .patrol

/-- Whether the record of a line is RETIRED (R110). -/
def State.lineRetired (s : State) (ch : ChanId) (line : Nat) : Bool :=
  match s.rec? ch line with
  | some r => decide (r.state = .retired)
  | none   => false

/-- The completion of a patrol or focus read's decode (R110 to R112). -/
def State.patrolDecode (s : State) (ch : ChanId) (r : PatrolRead) (f : Flight) (reps : Vector Report 8) : State :=
  let s1 := s.captureRead ch r.kind.source r.line f.loc none reps
  (s1.modChan ch (fun c => c.popFlight.patrolDecoded r f (s.lineRetired ch r.line) reps)).deliver ch r.line
    r.kind.source reps

/-- PATROL_READ_DECODE (R110), of the oldest read in flight on the channel. -/
def execPatrolReadDecode (ch : ChanId) (upsets : LineWords) (s : State) : Host.Outcome State Fault Refusal :=
  match (s.chan ch).flights with
  | f :: _ =>
      match f.kind, (s.chan ch).patrol.current with
      | .patrol, some r => .next (s.patrolDecode ch r f (reportsOf f.words upsets))
      | _, _ => .next s
  | [] => .next s

/-! ### The finish of a read (R107) -/

/-- Whether the current read can finish: decoded, nothing held, and no poison write left owed by it (R107). -/
def Channel.canFinish (c : Channel) (r : PatrolRead) : Bool :=
  r.decoded && c.patrol.held.isEmpty && !c.owed.any (fun o => o.owner == .patrol)

/-- The finish of an ordinary read under HALTING (R107): the position moves on, or the pass ends. -/
def State.haltFinish (s : State) (ch : ChanId) : State :=
  if (s.chan ch).patrol.position + 1 < (s.chan ch).visible then
    s.modChan ch (fun c => c.modPatrol (fun p => { p with position := p.position + 1, state := .idle }))
  else s.endPass ch

/-- PATROL_READ_FINISH (R104, R107, R108). -/
def execPatrolReadFinish (ch : ChanId) (s : State) : Host.Outcome State Fault Refusal :=
  match (s.chan ch).patrol.current with
  | none => .next s
  | some r =>
      if (s.chan ch).canFinish r then
        let s1 := s.modChan ch (fun c => c.modPatrol (fun p => { p with current := none }))
        match (s.chan ch).patrol.state, r.kind with
        | .running, .ordinary => .next (s1.comeTo ch ((s.chan ch).patrol.position + 1))
        | .running, .focus => .next s1
        | _, .ordinary =>
            if r.acrossReset then .next (s1.modChan ch (fun c => c.modPatrol (fun p => { p with state := .idle })))
            else .next (s1.haltFinish ch)
        | _, .focus => .next (s1.modChan ch (fun c => c.modPatrol (fun p => { p with state := .idle })))
      else .next s

end Sys2Proof.Machine
end

