-- ==== Sys2Proof/Machine/CadenceUnit.lean ====
section
/-! DEFINITION. The Cadence Unit: slot starts and frame starts, the watchdog, and the events SLOT_END, BEAT and
WATCHDOG_EXPIRY (R124 to R139). -/

namespace Sys2Proof.Machine

/-! ### Slot starts and frame starts -/

/-- The budget that a slot start gives a channel: 0 when it yields, the profile's ops when the slot is open (R134, R135). -/
def Channel.slotBudget (c : Channel) (yieldLevel : Nat) (p : Profile) (slot : Nat) : Nat :=
  if yieldLevel ≤ c.queue.length then 0 else if p.mask.getLsbD slot then p.ops else 0

/-- Sets a channel's budget. -/
def Channel.withBudget (c : Channel) (n : Nat) : Channel := { c with budget := n }

/-- A slot start's effect on a channel's patrol: a budget of 1 or more ends the pass-start wait, and the engine comes to
line 0 (R109, R134). -/
def State.endWait (s : State) (ch : ChanId) : State :=
  if (s.chan ch).patrol.startWait && decide (1 ≤ (s.chan ch).budget) then
    (s.modChan ch (fun c => c.modPatrol (fun p => { p with startWait := false }))).comeTo ch 0
  else s

/-- A slot start (R125, R134): index, slot end, and every channel's budget. -/
def State.slotStart (s : State) (slot : Nat) : State :=
  let p := s.profile s.cadence.activePhase
  let s1 := { s with
    cadence := { s.cadence with slotIndex := some slot, slotEnd := some (s.now + s.settings.slotLen) } }
  (List.finRange 4).foldl State.endWait
    (s1.modAllChans (fun c => c.withBudget (c.slotBudget s.settings.yieldLevel p slot)))

/-- A slot that ends with no slot following (R125, R127). -/
def State.closeSlot (s : State) : State :=
  ({ s with cadence := { s.cadence with slotIndex := none, slotEnd := none } }).modAllChans (fun c => c.withBudget 0)

/-- A frame start (R125): the frame slot count and the pending phase are taken, and slot 0 starts. -/
def State.frameStart (s : State) : State :=
  State.slotStart { s with
    cadence := { s.cadence with
      frameSlots := s.settings.slotCount
      activePhase := s.cadence.pendingPhase.getD s.cadence.activePhase
      pendingPhase := none } } 0

/-- The end of the open slot at its slot end: the next slot, the next internal frame, or the wait for a BEAT (R125 to
R127). -/
def State.endSlot (s : State) (slot : Nat) : State :=
  if slot + 1 < s.cadence.frameSlots then s.slotStart (slot + 1)
  else match s.cadence.activeSource with
    | .internal => s.frameStart
    | .external => s.closeSlot

/-! ### The watchdog -/

/-- The moment at which the watchdog expires, while it runs (R128). -/
def State.watchdogDue (s : State) : Option Nat := s.cadence.watchdogRef.map (fun r => r + s.settings.cadenceTimeout)

/-- A watchdog expiry (R129). -/
def State.expire (s : State) : State :=
  (State.frameStart { s with
    cadence := { s.cadence with activeSource := .internal, watchdogRef := none } }).raise .cadenceLost

/-- The moment moves on to `t`, if it is not there already. -/
def State.passTo (s : State) (t : Nat) : State := { s with now := max s.now t }

/-- Whether a moment lies after another that may be absent. -/
def laterThan (t : Nat) (other : Option Nat) : Bool :=
  match other with
  | some u => decide (u < t)
  | none   => false

/-! ### The events -/

/-- SLOT_END (R125): the moment moves on to the open slot's end, unless the watchdog would expire before it (log entry 5). -/
def execSlotEnd (s : State) : Host.Outcome State Fault Refusal :=
  match s.cadence.slotIndex, s.cadence.slotEnd with
  | some i, some e => if laterThan e s.watchdogDue then .next s else .next ((s.passTo e).endSlot i)
  | _, _ => .next s

/-- WATCHDOG_EXPIRY (R128, R129): the moment moves on to the expiry, unless the open slot would end before it (log entry
5). -/
def execWatchdogExpiry (s : State) : Host.Outcome State Fault Refusal :=
  match s.watchdogDue with
  | some t => if laterThan t s.cadence.slotEnd then .next s else .next (s.passTo t).expire
  | none   => .next s

/-- A BEAT that begins a frame: under EXTERNAL (R127) or at the end of a fallback (R130). -/
def State.beatFrame (s : State) : State :=
  State.frameStart { s with
    cadence := { s.cadence with activeSource := .external, watchdogRef := some s.now } }

/-- BEAT (R126, R127, R130, R203): the edge is taken while CADENCE_SOURCE is EXTERNAL, and has no effect otherwise. -/
def execBeat (s : State) : Host.Outcome State Fault Refusal :=
  if s.resetAsserted then .next s
  else match s.cadence.activeSource, s.settings.cadenceSource with
    | .external, _ => .next s.beatFrame
    | .internal, .external => .next s.beatFrame
    | .internal, .internal => .next s

end Sys2Proof.Machine
end

