-- ==== Sys2Proof/Machine/Reset.lean ====
section
/-! DEFINITION. The RESET pin: the power-on reset while it is asserted and at its end (R201 to R203). -/

namespace Sys2Proof.Machine

/-- The part after the power-on reset: every item at its power-on value, with DRAM, the moment and the waiting commands as
they stood (R201). -/
def State.powerOnAgain (s : State) : State := State.powerOn (s.chans.map (fun c => c.dram)) s.now s.pending

/-- The part while RESET is held: no slot is open and every budget is 0 until the reset ends (R124, R203). -/
def State.heldInReset (s : State) : State := { s.powerOnAgain.closeSlot with resetAsserted := true }

/-- RESET_ASSERT (R201 to R203). -/
def execResetAssert (s : State) : Host.Outcome State Fault Refusal := .next s.heldInReset

/-- RESET_END (R124, R187, R202): a chip-select low period in progress then is no transaction. -/
def execResetEnd (csLow : Bool) (s : State) : Host.Outcome State Fault Refusal :=
  if s.resetAsserted then .next { s.powerOnAgain with shift := if csLow then .ignoring else .empty }
  else .next s

end Sys2Proof.Machine
end

