-- ==== Sys2Proof/Machine/Link.lean ====
section
/-! DEFINITION. The maintenance link: the pending response and SDO, how a transaction is answered, link errors, and the
commands NOP and STATUS (R181 to R190, R197 to R199). -/

namespace Sys2Proof.Machine

/-! ### Responses and SDO -/

/-- The 24 bytes of a response, its check byte included (R189, R190). -/
def Response.frame (r : Response) : Frame :=
  Frame.withCheck (r.code ++ (r.result.byte ++ (r.summary ++ r.payload)))

/-- The bits driven on SDO while n bits are clocked: the response's bits, then ones (R182). -/
def sdoBits (r : Response) (n : Nat) : List Bool :=
  (List.range n).map (fun i => if i < 192 then r.frame.getMsbD i else true)

/-- What a command leaves for the link: the state, the result, the payload, and the channels that make a selection once
the command has been taken (R147). -/
structure Reply where
  state   : State
  result  : Result
  payload : BitVec 160
  selects : List ChanId
  deriving DecidableEq, Repr

/-- A refusal: no effect and a zero payload (R188). -/
def refuse (s : State) (r : Result) : Reply := { state := s, result := r, payload := 0, selects := [] }

/-- A command that took effect with result OK and causes no selection. -/
def reply (s : State) (payload : BitVec 160) : Reply := { state := s, result := .ok, payload := payload, selects := [] }

/-- OK, or CLAMPED where a value was brought into range (R188). -/
def okOrClamped (clamped : Bool) : Result := if clamped then .clamped else .ok

/-! ### Transactions -/

/-- A transaction at the rising edge of CS#, unless RESET is held (R203) or the low period was in progress when the
power-on reset ended (R187). DESIGN CHOICE (log entry 9): what SDO carries in the latter is a free value, and a low period
that ends while RESET is held shows no bits, also where it began before RESET was asserted. -/
def State.transact (s : State) (f : State → State) : Host.Outcome State Fault Refusal :=
  if s.resetAsserted then .next { s with sdo := [] }
  else match s.shift with
    | .ignoring => .next { s with shift := .empty, sdo := Config.sdoInIgnoredPeriod s.now }
    | .empty => .next (f s)

/-- The state in which a good transaction's response has been formed (R184, R185, R190). -/
def Reply.respond (r : Reply) (before : State) (extra : Nat) (code : Byte) : State :=
  { r.state with
    response :=
      { code := code, result := r.result, summary := summaryByte r.state.alertLine 0, payload := r.payload }
    linkErrors := 0
    sdo := sdoBits before.response (192 + extra) }

/-- A good transaction: the command is run, its response formed, and the selections it brings about are made. -/
def State.answer (s : State) (extra : Nat) (code : Byte) (f : State → Reply) : Host.Outcome State Fault Refusal :=
  s.transact (fun t => ((f t).respond t extra code).selectAll (f t).selects)

/-- The consecutive link error count after one more link error (R186). -/
def countLinkError (n : Nat) : Nat := min 15 (n + 1)

/-- The causes after a link error that leaves the count at n: LINK_FAULT at or above the limit (R186). -/
def State.linkFaultAt (s : State) (n : Nat) : State :=
  if s.settings.linkErrorLimit ≤ n then s.raise .linkFault else s

/-- A link error of a transaction of `bits` bits (R182, R183, R186, R190). -/
def State.linkError (s : State) (bits : Nat) (code : Byte) (r : Result) : State :=
  let n := countLinkError s.linkErrors
  { s.linkFaultAt n with
    response := { code := code, result := r, summary := summaryByte (s.linkFaultAt n).alertLine n, payload := 0 }
    linkErrors := n
    sdo := sdoBits s.response bits }

/-- LINK_SHORT (R182). -/
def execLinkShort (bits : Nat) (s : State) : Host.Outcome State Fault Refusal :=
  s.transact (fun t => t.linkError bits 0x00 .short)

/-- LINK_CHECK_ERROR (R183). -/
def execLinkCheckError (extra : Nat) (code : Byte) (s : State) : Host.Outcome State Fault Refusal :=
  s.transact (fun t => t.linkError (192 + extra) code .checkError)

/-- UNKNOWN (R185): a good transaction whose code is not assigned. -/
def execUnknown (extra : Nat) (code : Byte) (s : State) : Host.Outcome State Fault Refusal :=
  s.answer extra code (fun t => refuse t .unknown)

/-- NOP (R199). -/
def execNop (extra : Nat) (s : State) : Host.Outcome State Fault Refusal :=
  s.answer extra 0x00 (fun t => reply t 0)

/-- The reply of STATUS: page 0 for the device, pages 1 to 4 for the channels (R197, R198). -/
def statusReply (page : Byte) (s : State) : Reply :=
  if page = 0 then reply s (devicePage s)
  else match channelArg (page - 1) with
    | some ch => reply s (channelPage ch (s.chan ch))
    | none    => refuse s .range

/-- STATUS (R197, R198). -/
def execStatus (extra : Nat) (page : Byte) (s : State) : Host.Outcome State Fault Refusal :=
  s.answer extra 0x01 (statusReply page)

end Sys2Proof.Machine
end

