-- ==== Sys2Proof/Machine/SettingsUnit.lean ====
section
/-! DEFINITION. GET_SETTING and SET_SETTING (R194 to R196), with what each setting's owner does at the change (R51, R73,
R118, R128, R131, R176, R186). -/

namespace Sys2Proof.Machine

/-- The settings of R194. -/
inductive SettingId where
  | physLines (ch : ChanId)
  | wCe | wRepeat | decayShift | focusInterval
  | cadenceSource | slotLen | slotCount | cadenceTimeout | yieldLevel
  | alertMask | linkErrorLimit
  deriving DecidableEq, Repr

/-- The setting of an identifier (R194). -/
def settingOf (id : Byte) : Option SettingId :=
  match id.toNat with
  | 0x00 => some (.physLines 0)
  | 0x01 => some (.physLines 1)
  | 0x02 => some (.physLines 2)
  | 0x03 => some (.physLines 3)
  | 0x10 => some .wCe
  | 0x11 => some .wRepeat
  | 0x12 => some .decayShift
  | 0x18 => some .focusInterval
  | 0x20 => some .cadenceSource
  | 0x21 => some .slotLen
  | 0x22 => some .slotCount
  | 0x23 => some .cadenceTimeout
  | 0x24 => some .yieldLevel
  | 0x30 => some .alertMask
  | 0x31 => some .linkErrorLimit
  | _    => none

/-- The stored value of a setting as a number (R195). -/
def State.settingValue (s : State) : SettingId → Nat
  | .physLines ch   => (s.chan ch).physLines
  | .wCe            => s.settings.wCe
  | .wRepeat        => s.settings.wRepeat
  | .decayShift     => s.settings.decayShift
  | .focusInterval  => s.settings.focusInterval
  | .cadenceSource  => s.settings.cadenceSource.byte.toNat
  | .slotLen        => s.settings.slotLen
  | .slotCount      => s.settings.slotCount
  | .cadenceTimeout => s.settings.cadenceTimeout
  | .yieldLevel     => s.settings.yieldLevel
  | .alertMask      => s.settings.alertMask.toNat
  | .linkErrorLimit => s.settings.linkErrorLimit

/-- The reply of GET_SETTING (R195). -/
def getSettingReply (id : Byte) (s : State) : Reply :=
  match settingOf id with
  | some k => reply s (settingReadout id (s.settingValue k))
  | none   => refuse s .range

/-- GET_SETTING (R195). -/
def execGetSetting (extra : Nat) (id : Byte) (s : State) : Host.Outcome State Fault Refusal :=
  s.answer extra 0x02 (getSettingReply id)

/-! ### Storing a value -/

/-- A value brought into a range (R196). -/
def clampTo (lo hi v : Nat) : Nat := min hi (max lo v)

/-- The value that PHYS_LINES stores (R73, R196). -/
def storedPhysLines (v : Nat) : Nat := if v = 0 then 0 else clampTo 1024 268435456 v

/-- Changes the settings. -/
def State.modSettings (s : State) (f : Settings → Settings) : State := { s with settings := f s.settings }

/-- The reply of a SET_SETTING that was not refused: the identifier and the value as stored (R196). -/
def storedReply (s : State) (id : Byte) (given stored : Nat) : Reply :=
  { state := s, result := okOrClamped (decide (stored ≠ given)), payload := settingReadout id stored, selects := [] }

/-- A numeric setting whose change acts on nothing by itself (R196). -/
def storeNumber (id : Byte) (lo hi : Nat) (set : Settings → Nat → Settings) (v : BitVec 32) (s : State) : Reply :=
  storedReply (s.modSettings (fun c => set c (clampTo lo hi v.toNat))) id v.toNat (clampTo lo hi v.toNat)

/-- The Spare Pool's part in a change of PHYS_LINES: every DEFECTIVE slot becomes FREE, with the effects of R142 (R73). The
channel has no records, so no selection follows. -/
def Channel.freeDefective (c : Channel) : Channel :=
  let bad : Loc → Bool := fun l =>
    match l with
    | .slot i => c.slots.get i == .defective
    | .line _ => false
  Channel.dropWrites
    { c with
      slots := c.slots.map (fun st => if st = .defective then .free else st)
      exhausted := c.exhausted && !c.slots.any (· == .defective)
      flights := c.flights.map (fun f => if bad f.loc then { f with moved := true } else f) }
    (fun e => bad e.loc)

/-- A channel whose PHYS_LINES changes (R73, R101): of the held offers, those at a slot that becomes FREE are dropped (R115) and
the others are offered to the emptied queue (R114). -/
def Channel.changePhysLines (c : Channel) (n : Nat) : Channel :=
  let c1 := Channel.emptyWbq (Channel.freeDefective { c with wbq := [] })
  { c1 with
    physLines := n
    fillProgress := 0
    patrol := { c1.patrol with position := 0, pass := 0, focusCursor := none, focusCount := 0 } }

/-- The identifier of a channel's PHYS_LINES (R194). -/
def physLinesId (ch : ChanId) : Byte := ChanId.byte ch

/-- The reply of SET_SETTING of PHYS_LINES (R73). -/
def setPhysLinesReply (ch : ChanId) (v : BitVec 32) (s : State) : Reply :=
  let stored := storedPhysLines v.toNat
  if (s.chan ch).state ≠ .disabled ∨ hasRecords s.table ch = true then refuse s .state
  else if stored = (s.chan ch).physLines then storedReply s (physLinesId ch) v.toNat stored
  else storedReply (s.modChan ch (fun c => c.changePhysLines stored)) (physLinesId ch) v.toNat stored

/-- A change of CADENCE_SOURCE as the Cadence Unit takes it (R131). -/
def State.changeSource (s : State) (src : CadSource) : State :=
  let s1 := s.modSettings (fun c => { c with cadenceSource := src })
  match s.settings.cadenceSource, src with
  | .internal, .external =>
      { s1 with cadence := { s.cadence with activeSource := .external, watchdogRef := some s.now } }
  | .external, .internal =>
      if s.cadence.activeSource = .internal then s1
      else
        let s2 := { s1 with cadence := { s.cadence with activeSource := .internal, watchdogRef := none } }
        if s.cadence.slotIndex.isNone then s2.frameStart else s2
  | _, _ => s

/-- The source that a value names (R196). -/
def sourceArg (v : BitVec 32) : Option CadSource :=
  match v.toNat with
  | 0 => some .internal
  | 1 => some .external
  | _ => none

/-- The reply of SET_SETTING of CADENCE_SOURCE (R131). -/
def setCadenceSourceReply (v : BitVec 32) (s : State) : Reply :=
  match sourceArg v with
  | none    => refuse s .range
  | some src => storedReply (s.changeSource src) 0x20 v.toNat v.toNat

/-- A new CADENCE_TIMEOUT as the watchdog takes it: it expires at the change when that much time has passed (R128). -/
def State.changeTimeout (s : State) (t : Nat) : State :=
  let s1 := s.modSettings (fun c => { c with cadenceTimeout := t })
  match s1.watchdogDue with
  | some due => if t ≠ s.settings.cadenceTimeout ∧ due ≤ s.now then s1.expire else s1
  | none     => s1

/-- The reply of SET_SETTING of CADENCE_TIMEOUT (R131). -/
def setCadenceTimeoutReply (v : BitVec 32) (s : State) : Reply :=
  storedReply (s.changeTimeout (clampTo 100 100000 v.toNat)) 0x23 v.toNat (clampTo 100 100000 v.toNat)

/-- A new FOCUS_INTERVAL as the Patrol Engines take it (R118). -/
def State.changeFocus (s : State) (n : Nat) : State :=
  let s1 := s.modSettings (fun c => { c with focusInterval := n })
  if n = 0 then s1.modAllChans (fun c => c.modPatrol (fun p => { p with focusCount := 0 })) else s1

/-- The reply of SET_SETTING of FOCUS_INTERVAL (R118). -/
def setFocusIntervalReply (v : BitVec 32) (s : State) : Reply :=
  storedReply (s.changeFocus (clampTo 0 64 v.toNat)) 0x18 v.toNat (clampTo 0 64 v.toNat)

/-- The reply of SET_SETTING of ALERT_MASK (R176). -/
def setAlertMaskReply (v : BitVec 32) (s : State) : Reply :=
  storedReply (s.modSettings (fun c => { c with alertMask := v.setWidth 12 })) 0x30 v.toNat
    (v.setWidth 12 : CauseSet).toNat

/-- The reply of SET_SETTING of any setting (R196). -/
def setSettingReply (id : Byte) (v : BitVec 32) (s : State) : Reply :=
  match settingOf id with
  | none                 => refuse s .range
  | some (.physLines ch) => setPhysLinesReply ch v s
  | some .wCe            => storeNumber id 1 255 (fun c n => { c with wCe := n }) v s
  | some .wRepeat        => storeNumber id 1 255 (fun c n => { c with wRepeat := n }) v s
  | some .decayShift     => storeNumber id 1 7 (fun c n => { c with decayShift := n }) v s
  | some .focusInterval  => setFocusIntervalReply v s
  | some .cadenceSource  => setCadenceSourceReply v s
  | some .slotLen        => storeNumber id 1 1000 (fun c n => { c with slotLen := n }) v s
  | some .slotCount      => storeNumber id 2 32 (fun c n => { c with slotCount := n }) v s
  | some .cadenceTimeout => setCadenceTimeoutReply v s
  | some .yieldLevel     => storeNumber id 1 32 (fun c n => { c with yieldLevel := n }) v s
  | some .alertMask      => setAlertMaskReply v s
  | some .linkErrorLimit => storeNumber id 1 15 (fun c n => { c with linkErrorLimit := n }) v s

/-! ### The commands -/

/-- SET_SETTING (R196). -/
def execSetSetting (extra : Nat) (id : Byte) (v : BitVec 32) (s : State) : Host.Outcome State Fault Refusal :=
  s.answer extra 0x03 (setSettingReply id v)

/-- SET_SETTING of PHYS_LINES (R73). -/
def execSetPhysLines (extra : Nat) (ch : ChanId) (v : BitVec 32) (s : State) : Host.Outcome State Fault Refusal :=
  s.answer extra 0x03 (setPhysLinesReply ch v)

/-- SET_SETTING of CADENCE_SOURCE (R131). -/
def execSetCadenceSource (extra : Nat) (v : BitVec 32) (s : State) : Host.Outcome State Fault Refusal :=
  s.answer extra 0x03 (setCadenceSourceReply v)

/-- SET_SETTING of CADENCE_TIMEOUT (R128, R131). -/
def execSetCadenceTimeout (extra : Nat) (v : BitVec 32) (s : State) : Host.Outcome State Fault Refusal :=
  s.answer extra 0x03 (setCadenceTimeoutReply v)

/-- SET_SETTING of FOCUS_INTERVAL (R118). -/
def execSetFocusInterval (extra : Nat) (v : BitVec 32) (s : State) : Host.Outcome State Fault Refusal :=
  s.answer extra 0x03 (setFocusIntervalReply v)

/-- SET_SETTING of ALERT_MASK (R176). -/
def execSetAlertMask (extra : Nat) (v : BitVec 32) (s : State) : Host.Outcome State Fault Refusal :=
  s.answer extra 0x03 (setAlertMaskReply v)

end Sys2Proof.Machine
end

