-- ==== Sys2Proof/Machine/SoftReset.lean ====
section
/-! DEFINITION. SOFT_RESET, block by block (R200): R18, R32, R165 for the table, the Migration Units and the Spare Pool, R104
for the Patrol Engines, R91 and R97 for the Write-back Queues and the arbiters, R138 for the Cadence Unit, R180 for Capture
and Alert. -/

namespace Sys2Proof.Machine

/-- A Patrol Engine at SOFT_RESET (R104). -/
def PatrolEngine.softReset (p : PatrolEngine) : PatrolEngine :=
  { p with
    position := 0
    pass := 0
    focusCursor := none
    focusCount := 0
    startWait := false
    state := if p.current.isSome then .halting else .idle
    current := p.current.map (fun r => { r with acrossReset := true }) }

/-- A channel's patrol, Write-back Queue, arbiter, exhaustion flag, capture record and counts at SOFT_RESET (R91, R97, R104,
R165, R180). -/
def Channel.softReset (c : Channel) : Channel :=
  let c1 := Channel.emptyWbq { c with patrol := c.patrol.softReset, exhausted := false }
  { c1 with demandCount := 0, capture := none, ceCount := 0, ueCount := 0 }

/-- The migrations abandoned at SOFT_RESET, hold left as it was (R165), with the Write-back Queues emptied in the same change
(R91), so that only held offers are left to drop at a target slot that becomes FREE (R115). -/
def State.abandonAll (s : State) : State :=
  (List.finRange 4).foldl (fun t ch => t.cancelMigration ch false) (s.modAllChans (fun c => { c with wbq := [] }))

/-- The Cadence Unit at SOFT_RESET (R138). -/
def State.restartCadence (s : State) : State :=
  State.frameStart { s with
    cadence := { s.cadence with
      activePhase := .closed
      pendingPhase := none
      watchdogRef := if s.cadence.activeSource = .external then some s.now else s.cadence.watchdogRef } }

/-- The changes of SOFT_RESET before the selections that follow it (R200). -/
def State.softReset (s : State) : State :=
  { (s.abandonAll.modAllChans Channel.softReset).restartCadence with causes := 0 }

/-- The reply of SOFT_RESET: every Migration Unit then makes a selection (R165). -/
def softResetReply (s : State) : Reply :=
  { state := s.softReset, result := .ok, payload := 0, selects := List.finRange 4 }

/-- SOFT_RESET (R200). -/
def execSoftReset (extra : Nat) (s : State) : Host.Outcome State Fault Refusal := s.answer extra 0x0F softResetReply

end Sys2Proof.Machine
end

