-- ==== Sys2Proof/Machine/Records.lean ====
section
/-! DEFINITION. The record commands (R39 to R46). -/

namespace Sys2Proof.Machine

/-- The record readout of a line (R193), zero when it has no record. -/
def State.readout (s : State) (ch : ChanId) (line : Nat) : BitVec 160 :=
  match s.rec? ch line with
  | some r => recordReadout r
  | none   => 0

/-- A command that took effect on a line's record and returns its readout (R39). -/
def recordReply (s : State) (ch : ChanId) (line : Nat) (res : Result) (selects : List ChanId) : Reply :=
  { state := s, result := res, payload := s.readout ch line, selects := selects }

/-- The first checks of a record command, in order: the channel, then the record (R39). -/
def withRecord (s : State) (ch : Byte) (line : BitVec 32) (f : ChanId → Record → Reply) : Reply :=
  match channelArg ch with
  | none => refuse s .range
  | some c =>
      match s.rec? c line.toNat with
      | none   => refuse s .notFound
      | some r => f c r

/-! ### LOOKUP and NEXT -/

/-- The reply of LOOKUP (R40). -/
def lookupReply (ch : Byte) (line : BitVec 32) (s : State) : Reply :=
  withRecord s ch line (fun c _ => recordReply s c line.toNat .ok [])

/-- LOOKUP (R40). -/
def execLookup (extra : Nat) (ch : Byte) (line : BitVec 32) (s : State) : Host.Outcome State Fault Refusal :=
  s.answer extra 0x10 (lookupReply ch line)

/-- Whether a state passes the filter of NEXT (R41). -/
def Filter.passes (f : Filter) (st : RecState) : Bool :=
  match f with
  | .any    => true
  | .only x => x == st

/-- Where NEXT begins: before the first key, after a key, or beyond every key (R41). -/
inductive After where
  | start
  | key (k : Key)
  | beyond
  deriving DecidableEq, Repr

/-- The after argument of NEXT: a channel above 3 lies beyond every key (R41, R191). -/
def afterArg (present : Bool) (ch : Byte) (line : BitVec 32) : After :=
  if present then
    match channelArg ch with
    | some c => .key { channel := c, line := line.toNat }
    | none   => .beyond
  else .start

/-- Whether a key follows the after argument. -/
def After.precedes (a : After) (k : Key) : Bool :=
  match a with
  | .start  => true
  | .key x  => Key.lt x k
  | .beyond => false

/-- The record that NEXT returns: the one with the smallest key that follows and passes (R41). -/
def nextRecord (t : List Record) (a : After) (f : Filter) : Option Record :=
  firstBy (fun x y => Key.lt x.key y.key) (t.filter (fun r => a.precedes r.key && f.passes r.state))

/-- The reply of NEXT (R41). -/
def nextReply (flag ch : Byte) (line : BitVec 32) (filter : Byte) (s : State) : Reply :=
  match yesNoArg flag, filterArg filter with
  | some present, some f =>
      match nextRecord s.table (afterArg present ch line) f with
      | some r => reply s (recordReadout r)
      | none   => refuse s .notFound
  | _, _ => refuse s .range

/-- NEXT (R41). -/
def execNext (extra : Nat) (flag ch : Byte) (line : BitVec 32) (filter : Byte) (s : State) :
    Host.Outcome State Fault Refusal :=
  s.answer extra 0x11 (nextReply flag ch line filter)

/-! ### ADOPT -/

/-- What ADOPT's state and slot arguments ask for, if they are in range (R42). -/
inductive AdoptAs where
  | watch
  | retired
  | spared (slot : SlotId)
  deriving DecidableEq, Repr

/-- The state and slot arguments of ADOPT: the slot is examined only with SPARED (R42). -/
def adoptArg (state : Byte) (slot : BitVec 16) : Option AdoptAs :=
  match stateArg state with
  | some .watch   => some .watch
  | some .retired => some .retired
  | some .spared  => (slotArg slot).map .spared
  | _ => none

/-- The record that ADOPT creates (R42). -/
def adopted (k : Key) (a : AdoptAs) : Record :=
  match a with
  | .watch       => newRecord k .host
  | .retired     => { newRecord k .host with state := .retired }
  | .spared slot => { newRecord k .host with state := .spared, spareSlot := some slot }

/-- Whether ADOPT's slot is to be had (R42). -/
def Channel.adoptable (c : Channel) (a : AdoptAs) : Bool :=
  match a with
  | .spared slot => c.slots.get slot == .free
  | _ => true

/-- ADOPT's effect (R42): the record is created, and a spare slot it names is allocated. -/
def State.adopt (s : State) (k : Key) (a : AdoptAs) : State :=
  let s1 := { s with table := insertRec s.table (adopted k a) }
  match a with
  | .spared slot => s1.modChan k.channel (fun c => c.setSlot slot .allocated)
  | _ => s1

/-- The reply of ADOPT (R42). -/
def adoptReply (ch : Byte) (line : BitVec 32) (state : Byte) (slot : BitVec 16) (s : State) : Reply :=
  match channelArg ch, adoptArg state slot with
  | some c, some a =>
      if (s.chan c).visible ≤ line.toNat then refuse s .range
      else if (s.rec? c line.toNat).isSome then refuse s .exists
      else if tableCapacity ≤ s.table.length then refuse s .full
      else if (s.chan c).adoptable a = false then refuse s .state
      else recordReply (s.adopt { channel := c, line := line.toNat } a) c line.toNat .ok []
  | _, _ => refuse s .range

/-- ADOPT (R42). -/
def execAdopt (extra : Nat) (ch : Byte) (line : BitVec 32) (state : Byte) (slot : BitVec 16) (s : State) :
    Host.Outcome State Fault Refusal :=
  s.answer extra 0x12 (adoptReply ch line state slot)

/-! ### PIN, UNPIN and CLEAR_HOLD -/

/-- A change of a record that RETIRED refuses (R43, R46). -/
def changeUnlessRetired (ch : Byte) (line : BitVec 32) (f : Record → Record) (selects : ChanId → Record → List ChanId)
    (s : State) : Reply :=
  withRecord s ch line (fun c r =>
    if r.state = .retired then refuse s .state
    else recordReply (s.modRec c line.toNat f) c line.toNat .ok (selects c r))

/-- PIN (R43). -/
def execPin (extra : Nat) (ch : Byte) (line : BitVec 32) (s : State) : Host.Outcome State Fault Refusal :=
  s.answer extra 0x13 (changeUnlessRetired ch line (fun r => { r with pinned := true }) (fun _ _ => []))

/-- UNPIN (R43). -/
def execUnpin (extra : Nat) (ch : Byte) (line : BitVec 32) (s : State) : Host.Outcome State Fault Refusal :=
  s.answer extra 0x14 (changeUnlessRetired ch line (fun r => { r with pinned := false }) (fun _ _ => []))

/-- CLEAR_HOLD (R46): a hold that was set brings about a selection (R37). -/
def execClearHold (extra : Nat) (ch : Byte) (line : BitVec 32) (s : State) : Host.Outcome State Fault Refusal :=
  s.answer extra 0x17 (changeUnlessRetired ch line (fun r => { r with hold := false })
    (fun c r => if r.hold then [c] else []))

/-! ### RETIRE -/

/-- RETIRE's cancel of a migration of the line, as host CANCEL cancels it (R44, R151). -/
def State.retireCancel (s : State) (ch : ChanId) (r : Record) : State :=
  if r.state = .sparing then s.cancelMigration ch true else s

/-- RETIRE's release of the spare slot that the line's record then holds (R44). -/
def State.retireSlot (s : State) (ch : ChanId) (line : Nat) : State :=
  match (s.rec? ch line).bind (fun r => r.spareSlot) with
  | some slot => s.modChan ch (fun c => c.setSlot slot .free)
  | none      => s

/-- A record as RETIRE leaves it (R34, R44). -/
def Record.retire (r : Record) : Record :=
  { r with state := .retired, spareSlot := none, targetSlot := none, priorState := none, poison := 0 }

/-- RETIRE's effect (R44). -/
def State.retire (s : State) (ch : ChanId) (line : Nat) (r : Record) : State :=
  ((s.retireCancel ch r).retireSlot ch line).modRec ch line Record.retire

/-- Whether RETIRE frees a slot, so that a selection follows (R44, R142). -/
def Record.retireFrees (r : Record) : Bool := decide (r.state = .sparing) || decide (r.state = .spared)

/-- The reply of RETIRE (R44). -/
def retireReply (ch : Byte) (line : BitVec 32) (s : State) : Reply :=
  withRecord s ch line (fun c r =>
    if r.state = .retired then recordReply s c line.toNat .ok []
    else recordReply (s.retire c line.toNat r) c line.toNat .ok (if r.retireFrees then [c] else []))

/-- RETIRE (R44). -/
def execRetire (extra : Nat) (ch : Byte) (line : BitVec 32) (s : State) : Host.Outcome State Fault Refusal :=
  s.answer extra 0x15 (retireReply ch line)

/-! ### RELEASE -/

/-- The states in which RELEASE is accepted (R45). -/
def RecState.releasable : RecState → Bool
  | .watch   => true
  | .hot     => true
  | .retired => true
  | _ => false

/-- The reply of RELEASE, with the readout of the removed record (R45). -/
def releaseReply (ch : Byte) (line : BitVec 32) (s : State) : Reply :=
  withRecord s ch line (fun _ r =>
    if r.state.releasable then reply { s with table := eraseRec s.table r.key } (recordReadout r)
    else refuse s .state)

/-- RELEASE (R45). -/
def execRelease (extra : Nat) (ch : Byte) (line : BitVec 32) (s : State) : Host.Outcome State Fault Refusal :=
  s.answer extra 0x16 (releaseReply ch line)

end Sys2Proof.Machine
end

