-- ==== Sys2Proof/Machine/Spares.lean ====
section
/-! DEFINITION. The sparing commands: SPARE and CANCEL (R150, R151), SPARE_QUERY, SPARE_SLOT and SPARE_RESTORE (R143 to
R145). -/

namespace Sys2Proof.Machine

/-- The reply of SPARE (R150). -/
def spareReply (ch : Byte) (line : BitVec 32) (s : State) : Reply :=
  withRecord s ch line (fun c r =>
    if r.state.sparable = false then refuse s .state
    else if (s.chan c).migration.isSome then refuse s .busy
    else match (s.chan c).lowestFree with
      | none   => refuse s .noSpare
      | some t => recordReply (s.startMigration r t true) c line.toNat .accepted [])

/-- SPARE (R150). -/
def execSpare (extra : Nat) (ch : Byte) (line : BitVec 32) (s : State) : Host.Outcome State Fault Refusal :=
  s.answer extra 0x20 (spareReply ch line)

/-- The reply of CANCEL (R151); the unit then makes its selection. -/
def cancelReply (ch : Byte) (line : BitVec 32) (s : State) : Reply :=
  withRecord s ch line (fun c r =>
    if r.state = .sparing then recordReply (s.cancelMigration c true) c line.toNat .ok [c]
    else refuse s .state)

/-- CANCEL (R151). -/
def execCancel (extra : Nat) (ch : Byte) (line : BitVec 32) (s : State) : Host.Outcome State Fault Refusal :=
  s.answer extra 0x21 (cancelReply ch line)

/-- A command whose one check is its channel. -/
def onChannel (s : State) (ch : Byte) (f : ChanId → Reply) : Reply :=
  match channelArg ch with
  | none   => refuse s .range
  | some c => f c

/-- SPARE_QUERY (R143). -/
def execSpareQuery (extra : Nat) (ch : Byte) (s : State) : Host.Outcome State Fault Refusal :=
  s.answer extra 0x22 (fun t => onChannel t ch (fun c => reply t (spareQueryReadout (t.chan c))))

/-- A command whose checks are its channel and its slot. -/
def onSlot (s : State) (ch : Byte) (slot : BitVec 16) (f : ChanId → SlotId → Reply) : Reply :=
  match channelArg ch, slotArg slot with
  | some c, some i => f c i
  | _, _ => refuse s .range

/-- SPARE_SLOT (R144). -/
def execSpareSlot (extra : Nat) (ch : Byte) (slot : BitVec 16) (s : State) : Host.Outcome State Fault Refusal :=
  s.answer extra 0x23 (fun t => onSlot t ch slot (fun c i =>
    reply t (spareSlotReadout ((t.chan c).slots.get i) (slotOwner t.table c i))))

/-- The reply of SPARE_RESTORE (R145). -/
def spareRestoreReply (ch : Byte) (slot : BitVec 16) (s : State) : Reply :=
  onSlot s ch slot (fun c i =>
    if (s.chan c).slots.get i = .defective then
      { state := s.modChan c (fun d => d.setSlot i .free), result := .ok
        payload := SlotState.byte .free ++ 0#152, selects := [c] }
    else refuse s .state)

/-- SPARE_RESTORE (R145). -/
def execSpareRestore (extra : Nat) (ch : Byte) (slot : BitVec 16) (s : State) : Host.Outcome State Fault Refusal :=
  s.answer extra 0x24 (spareRestoreReply ch slot)

end Sys2Proof.Machine
end

