-- ==== Sys2Proof/Machine/RegionCommands.lean ====
section
/-! DEFINITION. The commands of the Region Map: REGION_SET, REGION_GET, CLASS_SET and CLASS_GET (R68 to R71). -/

namespace Sys2Proof.Machine

/-- The largest visible line count among the channels of a set (R68). -/
def State.largestVisible (s : State) (chans : BitVec 4) : Nat :=
  (List.finRange 4).foldl (fun m ch => if chans.getLsbD ch.val then max m (s.chan ch).visible else m) 0

/-- The last line that a window stores (R68). -/
def storedLast (s : State) (chans : BitVec 4) (last : Nat) : Nat :=
  if chans = 0 then last else min last (s.largestVisible chans - 1)

/-- Replaces one window. -/
def State.setWindow (s : State) (i : Fin 8) (w : Window) : State := { s with windows := s.windows.set i.val w }

/-- The checks and the storage of REGION_SET, its codes already read (R68). -/
def regionStore (i : Fin 8) (en : Bool) (chans : BitVec 4) (first last : Nat) (cls : MemClass) (s : State) : Reply :=
  if last < first then refuse s .range
  else if chans ≠ 0 ∧ s.largestVisible chans ≤ first then refuse s .range
  else
    let w : Window :=
      { enabled := en, channels := chans, first := first, last := storedLast s chans last, cls := cls }
    { state := s.setWindow i w, result := okOrClamped (decide (w.last ≠ last)), payload := windowReadout i w
      selects := [] }

/-- The reply of REGION_SET (R68, R191). -/
def regionSetReply (index enabled chans : Byte) (first last : BitVec 32) (cls : Byte) (s : State) : Reply :=
  match windowArg index, yesNoArg enabled, channelSetArg chans, classArg cls with
  | some i, some en, some cs, some k => regionStore i en cs first.toNat last.toNat k s
  | _, _, _, _ => refuse s .range

/-- REGION_SET (R68). -/
def execRegionSet (extra : Nat) (index enabled chans : Byte) (first last : BitVec 32) (cls : Byte) (s : State) :
    Host.Outcome State Fault Refusal :=
  s.answer extra 0x30 (regionSetReply index enabled chans first last cls)

/-- The reply of REGION_GET (R69). -/
def regionGetReply (index : Byte) (s : State) : Reply :=
  match windowArg index with
  | some i => reply s (windowReadout i (s.windows.get i))
  | none   => refuse s .range

/-- REGION_GET (R69). -/
def execRegionGet (extra : Nat) (index : Byte) (s : State) : Host.Outcome State Fault Refusal :=
  s.answer extra 0x31 (regionGetReply index)

/-- The policy that CLASS_SET stores (R70). -/
def storedPolicy (tHot tSpare : Nat) (autoSpare demandWb : Bool) : Policy :=
  { tHot := min 1023 (max 1 tHot), tSpare := min 1023 (max (min 1023 (max 1 tHot)) tSpare)
    autoSpare := autoSpare, demandWb := demandWb }

/-- Replaces the policy of one class. -/
def State.setPolicy (s : State) (c : MemClass) (p : Policy) : State :=
  { s with policies := s.policies.set c.code.val p }

/-- The reply of CLASS_SET (R70). -/
def classSetReply (cls : Byte) (tHot tSpare : BitVec 16) (autoSpare demandWb : Byte) (s : State) : Reply :=
  match classArg cls, yesNoArg autoSpare, yesNoArg demandWb with
  | some c, some a, some w =>
      let p := storedPolicy tHot.toNat tSpare.toNat a w
      { state := s.setPolicy c p
        result := okOrClamped (decide (p.tHot ≠ tHot.toNat) || decide (p.tSpare ≠ tSpare.toNat))
        payload := classReadout c p, selects := [] }
  | _, _, _ => refuse s .range

/-- CLASS_SET (R70). -/
def execClassSet (extra : Nat) (cls : Byte) (tHot tSpare : BitVec 16) (autoSpare demandWb : Byte) (s : State) :
    Host.Outcome State Fault Refusal :=
  s.answer extra 0x32 (classSetReply cls tHot tSpare autoSpare demandWb)

/-- The reply of CLASS_GET (R70). -/
def classGetReply (cls : Byte) (s : State) : Reply :=
  match classArg cls with
  | some c => reply s (classReadout c (s.policy c))
  | none   => refuse s .range

/-- CLASS_GET (R70). -/
def execClassGet (extra : Nat) (cls : Byte) (s : State) : Host.Outcome State Fault Refusal :=
  s.answer extra 0x33 (classGetReply cls)

end Sys2Proof.Machine
end

