-- ==== Sys2Proof/Machine/ChannelCommands.lean ====
section
/-! DEFINITION. The commands of the channels and the patrol: CHANNEL_FILL, CHANNEL_ONLINE, CHANNEL_OFFLINE (R74, R76, R77),
PATROL_START and PATROL_HALT (R102, R103). -/

namespace Sys2Proof.Machine

/-- A channel command that took effect (R192). -/
def channelReply (s : State) (ch : ChanId) (res : Result) : Reply :=
  { state := s, result := res, payload := channelReadout (s.chan ch), selects := [] }

/-- Changes a channel's state. -/
def State.setChannel (s : State) (ch : ChanId) (st : ChannelState) : State :=
  s.modChan ch (fun c => { c with state := st })

/-- An accepted CHANNEL_FILL (R18, R74). -/
def State.startFill (s : State) (ch : ChanId) : State :=
  let s1 := s.modChan ch (fun c => { c.emptyWbq with state := .initializing, fillProgress := 0 })
  { s1 with table := clearPoison s1.table ch }

/-- The reply of CHANNEL_FILL (R74). -/
def channelFillReply (ch : Byte) (s : State) : Reply :=
  onChannel s ch (fun c =>
    if (s.chan c).state ≠ .disabled then refuse s .state
    else if (s.chan c).physLines = 0 then refuse s .range
    else channelReply (s.startFill c) c .accepted)

/-- CHANNEL_FILL (R74). -/
def execChannelFill (extra : Nat) (ch : Byte) (s : State) : Host.Outcome State Fault Refusal :=
  s.answer extra 0x40 (channelFillReply ch)

/-- The reply of CHANNEL_ONLINE (R76). -/
def channelOnlineReply (ch : Byte) (s : State) : Reply :=
  onChannel s ch (fun c =>
    if (s.chan c).physLines = 0 then refuse s .range
    else if (s.chan c).state ≠ .disabled then refuse s .state
    else channelReply (s.setChannel c .online) c .ok)

/-- CHANNEL_ONLINE (R76). -/
def execChannelOnline (extra : Nat) (ch : Byte) (s : State) : Host.Outcome State Fault Refusal :=
  s.answer extra 0x41 (channelOnlineReply ch)

/-- A copy or verify read, of a standing migration or of one that has ended. -/
def FlightKind.ofMigration : FlightKind → Bool
  | .copy _   => true
  | .verify _ => true
  | _ => false

/-- The four conditions under which an ONLINE channel may be taken offline (R77): no request, the Patrol Engine IDLE or DONE,
the Migration Unit idle, no migration read in flight. R77 adds that an idle Migration Unit owes no poison write, and that a
channel so taken offline owes none. DEDUCED (log entry 18): so a unit whose migration has ended with the poison write of its
copy read not yet issued is not idle here. -/
def Channel.atRest (c : Channel) : Bool :=
  c.queue.isEmpty && (decide (c.patrol.state = .idle) || decide (c.patrol.state = .done)) && c.migration.isNone &&
    c.owed.isEmpty && !c.flights.any (fun f => f.kind.ofMigration)

/-- The reply of CHANNEL_OFFLINE (R77). -/
def channelOfflineReply (ch : Byte) (s : State) : Reply :=
  onChannel s ch (fun c =>
    match (s.chan c).state with
    | .disabled     => channelReply s c .ok
    | .initializing => channelReply (s.setChannel c .disabled) c .ok
    | .online       => if (s.chan c).atRest then channelReply (s.setChannel c .disabled) c .ok else refuse s .busy)

/-- CHANNEL_OFFLINE (R77). -/
def execChannelOffline (extra : Nat) (ch : Byte) (s : State) : Host.Outcome State Fault Refusal :=
  s.answer extra 0x42 (channelOfflineReply ch)

/-! ### Patrol -/

/-- A patrol command that took effect (R192). -/
def patrolReply (s : State) (ch : ChanId) (res : Result) : Reply :=
  { state := s, result := res, payload := patrolReadout (s.chan ch).patrol, selects := [] }

/-- The start line argument: absent, or a line (R102, R191). -/
def startArg (flag : Byte) (start : BitVec 32) : Option (Option Nat) :=
  (yesNoArg flag).map (fun present => if present then some start.toNat else none)

/-- An accepted PATROL_START: the engine runs and comes to the line at its position (R102, R105). -/
def State.startPatrol (s : State) (ch : ChanId) (mode : PatrolMode) (start : Option Nat) : State :=
  let line := start.getD (s.chan ch).patrol.position
  (s.modChan ch (fun c => c.modPatrol (fun p =>
    { p with state := .running, mode := mode, position := line, startWait := false }))).comeTo ch line

/-- Whether a start line lies beyond a channel's visible lines (R102). -/
def Channel.beyond (c : Channel) (start : Option Nat) : Bool :=
  match start with
  | some l => decide (c.visible ≤ l)
  | none   => false

/-- The reply of PATROL_START (R102). -/
def patrolStartReply (ch mode flag : Byte) (start : BitVec 32) (s : State) : Reply :=
  match channelArg ch, modeArg mode, startArg flag start with
  | some c, some m, some st =>
      if (s.chan c).state ≠ .online then refuse s .notReady
      else if (s.chan c).patrol.state = .running ∨ (s.chan c).patrol.state = .halting then refuse s .busy
      else if (s.chan c).beyond st then refuse s .range
      else patrolReply (s.startPatrol c m st) c .accepted
  | _, _, _ => refuse s .range

/-- PATROL_START (R102). -/
def execPatrolStart (extra : Nat) (ch mode flag : Byte) (start : BitVec 32) (s : State) :
    Host.Outcome State Fault Refusal :=
  s.answer extra 0x43 (patrolStartReply ch mode flag start)

/-- A Patrol Engine at PATROL_HALT (R103). -/
def PatrolEngine.halt (p : PatrolEngine) : PatrolEngine :=
  match p.state, p.current with
  | .running, none   => { p with state := .idle, startWait := false }
  | .running, some _ => { p with state := .halting }
  | _, _ => p

/-- PATROL_HALT (R103). -/
def execPatrolHalt (extra : Nat) (ch : Byte) (s : State) : Host.Outcome State Fault Refusal :=
  s.answer extra 0x44 (fun t => onChannel t ch (fun c =>
    patrolReply (t.modChan c (fun d => d.modPatrol PatrolEngine.halt)) c .ok))

end Sys2Proof.Machine
end

