-- ==== Sys2Proof/Machine/PhaseCommands.lean ====
section
/-! DEFINITION. The phase commands: SET_PHASE, PROFILE_SET and PROFILE_GET (R132, R133). -/

namespace Sys2Proof.Machine

/-- The pending phase after SET_PHASE: naming the active phase withdraws a pending change (R132). -/
def Cadence.setPhase (c : Cadence) (p : Phase) : Cadence :=
  { c with pendingPhase := if p = c.activePhase then none else some p }

/-- The reply of SET_PHASE (R132). -/
def setPhaseReply (phase : Byte) (s : State) : Reply :=
  match phaseArg phase with
  | some p => reply { s with cadence := s.cadence.setPhase p } (phaseReadout (s.cadence.setPhase p))
  | none   => refuse s .range

/-- SET_PHASE (R132). -/
def execSetPhase (extra : Nat) (phase : Byte) (s : State) : Host.Outcome State Fault Refusal :=
  s.answer extra 0x50 (setPhaseReply phase)

/-- Replaces the profile of one phase. -/
def State.setProfile (s : State) (p : Phase) (f : Profile) : State :=
  { s with profiles := s.profiles.set p.code.val f }

/-- The reply of PROFILE_SET (R133). -/
def profileSetReply (phase : Byte) (mask : BitVec 32) (ops : Byte) (s : State) : Reply :=
  match phaseArg phase with
  | some p =>
      { state := s.setProfile p { mask := mask, ops := min 15 ops.toNat }
        result := okOrClamped (decide (15 < ops.toNat))
        payload := profileReadout p { mask := mask, ops := min 15 ops.toNat }, selects := [] }
  | none   => refuse s .range

/-- PROFILE_SET (R133). -/
def execProfileSet (extra : Nat) (phase : Byte) (mask : BitVec 32) (ops : Byte) (s : State) :
    Host.Outcome State Fault Refusal :=
  s.answer extra 0x51 (profileSetReply phase mask ops)

/-- The reply of PROFILE_GET (R133). -/
def profileGetReply (phase : Byte) (s : State) : Reply :=
  match phaseArg phase with
  | some p => reply s (profileReadout p (s.profile p))
  | none   => refuse s .range

/-- PROFILE_GET (R133). -/
def execProfileGet (extra : Nat) (phase : Byte) (s : State) : Host.Outcome State Fault Refusal :=
  s.answer extra 0x52 (profileGetReply phase)

end Sys2Proof.Machine
end

