-- ==== Sys2Proof/Machine/AlertCommands.lean ====
section
/-! DEFINITION. The commands of Capture and Alert: CAPTURE_READ, CAPTURE_CLEAR, COUNTS_READ, COUNTS_CLEAR, ALERT_READ and
ALERT_ACK (R170, R171, R173, R178, R179). -/

namespace Sys2Proof.Machine

/-- CAPTURE_READ (R170). -/
def execCaptureRead (extra : Nat) (ch : Byte) (s : State) : Host.Outcome State Fault Refusal :=
  s.answer extra 0x60 (fun t => onChannel t ch (fun c => reply t (captureReadout c (t.chan c).capture)))

/-- CAPTURE_CLEAR (R171): the reply carries the record as it stood. -/
def execCaptureClear (extra : Nat) (ch : Byte) (s : State) : Host.Outcome State Fault Refusal :=
  s.answer extra 0x61 (fun t => onChannel t ch (fun c =>
    reply (t.modChan c (fun d => { d with capture := none })) (captureReadout c (t.chan c).capture)))

/-- COUNTS_READ (R173). -/
def execCountsRead (extra : Nat) (ch : Byte) (s : State) : Host.Outcome State Fault Refusal :=
  s.answer extra 0x62 (fun t => onChannel t ch (fun c => reply t (countsReadout (t.chan c))))

/-- COUNTS_CLEAR (R173): the reply carries the counts as they stood. -/
def execCountsClear (extra : Nat) (ch : Byte) (s : State) : Host.Outcome State Fault Refusal :=
  s.answer extra 0x63 (fun t => onChannel t ch (fun c =>
    reply (t.modChan c (fun d => { d with ceCount := 0, ueCount := 0 })) (countsReadout (t.chan c))))

/-- ALERT_READ (R178). -/
def execAlertRead (extra : Nat) (s : State) : Host.Outcome State Fault Refusal :=
  s.answer extra 0x64 (fun t => reply t (alertReadout t))

/-- The reply of ALERT_ACK (R179). -/
def alertAckReply (causes : BitVec 16) (s : State) : Reply :=
  match causesArg causes with
  | some k => reply { s with causes := s.causes &&& ~~~k } (ackReadout s.causes (s.causes &&& ~~~k))
  | none   => refuse s .range

/-- ALERT_ACK (R179). -/
def execAlertAck (extra : Nat) (causes : BitVec 16) (s : State) : Host.Outcome State Fault Refusal :=
  s.answer extra 0x65 (alertAckReply causes)

end Sys2Proof.Machine
end

