-- ==== Sys2Proof/Machine/Dispatch.lean ====
section
/-! DEFINITION. The meaning of every command, one arm per constructor of Instr: its effect on everything but the queue of
waiting commands. -/

namespace Sys2Proof.Machine

def exec (i : Instr) (s : State) : Host.Outcome State Fault Refusal :=
  match i with
  | .requestArrival ch req => Sys2Proof.Machine.execRequestArrival ch req s
  | .responseDeparture ch => Sys2Proof.Machine.execResponseDeparture ch s
  | .demandReadIssue ch => Sys2Proof.Machine.execDemandReadIssue ch s
  | .demandWriteIssue ch => Sys2Proof.Machine.execDemandWriteIssue ch s
  | .mergeReadIssue ch => Sys2Proof.Machine.execMergeReadIssue ch s
  | .mergeReadDecode ch upsets => Sys2Proof.Machine.execMergeReadDecode ch upsets s
  | .mergeWriteIssue ch => Sys2Proof.Machine.execMergeWriteIssue ch s
  | .poisonWriteIssue ch => Sys2Proof.Machine.execPoisonWriteIssue ch s
  | .writeBackIssue ch => Sys2Proof.Machine.execWriteBackIssue ch s
  | .fillWriteIssue ch => Sys2Proof.Machine.execFillWriteIssue ch s
  | .copyReadIssue ch => Sys2Proof.Machine.execCopyReadIssue ch s
  | .copyReadDecode ch upsets => Sys2Proof.Machine.execCopyReadDecode ch upsets s
  | .copyWriteIssue ch => Sys2Proof.Machine.execCopyWriteIssue ch s
  | .verifyReadIssue ch => Sys2Proof.Machine.execVerifyReadIssue ch s
  | .verifyReadDecode ch upsets => Sys2Proof.Machine.execVerifyReadDecode ch upsets s
  | .patrolIssueStep ch => Sys2Proof.Machine.execPatrolIssueStep ch s
  | .patrolReadDecode ch upsets => Sys2Proof.Machine.execPatrolReadDecode ch upsets s
  | .patrolReadFinish ch => Sys2Proof.Machine.execPatrolReadFinish ch s
  | .demandReadDecode ch upsets => Sys2Proof.Machine.execDemandReadDecode ch upsets s
  | .slotEnd => Sys2Proof.Machine.execSlotEnd s
  | .beat => Sys2Proof.Machine.execBeat s
  | .watchdogExpiry => Sys2Proof.Machine.execWatchdogExpiry s
  | .resetAssert => Sys2Proof.Machine.execResetAssert s
  | .resetEnd csLow => Sys2Proof.Machine.execResetEnd csLow s
  | .linkShort bits => Sys2Proof.Machine.execLinkShort bits s
  | .linkCheckError extra code => Sys2Proof.Machine.execLinkCheckError extra code s
  | .unknown extra code => Sys2Proof.Machine.execUnknown extra code s
  | .nop extra => Sys2Proof.Machine.execNop extra s
  | .status extra page => Sys2Proof.Machine.execStatus extra page s
  | .getSetting extra id => Sys2Proof.Machine.execGetSetting extra id s
  | .setSetting extra id value => Sys2Proof.Machine.execSetSetting extra id value s
  | .setPhysLines extra ch value => Sys2Proof.Machine.execSetPhysLines extra ch value s
  | .setCadenceSource extra value => Sys2Proof.Machine.execSetCadenceSource extra value s
  | .setCadenceTimeout extra value => Sys2Proof.Machine.execSetCadenceTimeout extra value s
  | .setFocusInterval extra value => Sys2Proof.Machine.execSetFocusInterval extra value s
  | .setAlertMask extra value => Sys2Proof.Machine.execSetAlertMask extra value s
  | .softReset extra => Sys2Proof.Machine.execSoftReset extra s
  | .lookup extra ch line => Sys2Proof.Machine.execLookup extra ch line s
  | .next extra flag ch line filter => Sys2Proof.Machine.execNext extra flag ch line filter s
  | .adopt extra ch line state slot => Sys2Proof.Machine.execAdopt extra ch line state slot s
  | .pin extra ch line => Sys2Proof.Machine.execPin extra ch line s
  | .unpin extra ch line => Sys2Proof.Machine.execUnpin extra ch line s
  | .retire extra ch line => Sys2Proof.Machine.execRetire extra ch line s
  | .release extra ch line => Sys2Proof.Machine.execRelease extra ch line s
  | .clearHold extra ch line => Sys2Proof.Machine.execClearHold extra ch line s
  | .spare extra ch line => Sys2Proof.Machine.execSpare extra ch line s
  | .cancel extra ch line => Sys2Proof.Machine.execCancel extra ch line s
  | .spareQuery extra ch => Sys2Proof.Machine.execSpareQuery extra ch s
  | .spareSlot extra ch slot => Sys2Proof.Machine.execSpareSlot extra ch slot s
  | .spareRestore extra ch slot => Sys2Proof.Machine.execSpareRestore extra ch slot s
  | .regionSet extra index enabled chans first last cls => Sys2Proof.Machine.execRegionSet extra index enabled chans first last cls s
  | .regionGet extra index => Sys2Proof.Machine.execRegionGet extra index s
  | .classSet extra cls tHot tSpare autoSpare demandWb => Sys2Proof.Machine.execClassSet extra cls tHot tSpare autoSpare demandWb s
  | .classGet extra cls => Sys2Proof.Machine.execClassGet extra cls s
  | .channelFill extra ch => Sys2Proof.Machine.execChannelFill extra ch s
  | .channelOnline extra ch => Sys2Proof.Machine.execChannelOnline extra ch s
  | .channelOffline extra ch => Sys2Proof.Machine.execChannelOffline extra ch s
  | .patrolStart extra ch mode flag start => Sys2Proof.Machine.execPatrolStart extra ch mode flag start s
  | .patrolHalt extra ch => Sys2Proof.Machine.execPatrolHalt extra ch s
  | .setPhase extra phase => Sys2Proof.Machine.execSetPhase extra phase s
  | .profileSet extra phase mask ops => Sys2Proof.Machine.execProfileSet extra phase mask ops s
  | .profileGet extra phase => Sys2Proof.Machine.execProfileGet extra phase s
  | .captureRead extra ch => Sys2Proof.Machine.execCaptureRead extra ch s
  | .captureClear extra ch => Sys2Proof.Machine.execCaptureClear extra ch s
  | .countsRead extra ch => Sys2Proof.Machine.execCountsRead extra ch s
  | .countsClear extra ch => Sys2Proof.Machine.execCountsClear extra ch s
  | .alertRead extra => Sys2Proof.Machine.execAlertRead extra s
  | .alertAck extra causes => Sys2Proof.Machine.execAlertAck extra causes s

end Sys2Proof.Machine
end

