-- ==== Sys2Proof/Machine/Time.lean ====
section
/-! DEFINITION. The passing of time while no command waits (log entry 5). -/

namespace Sys2Proof.Machine

/-- Whether a moment that may be absent has been reached. -/
def reached (due : Option Nat) (now : Nat) : Bool :=
  match due with
  | some t => decide (t ≤ now)
  | none   => false

/-- Whether the watchdog's expiry is due at the present moment. -/
def State.expiryDue (s : State) : Bool := reached s.watchdogDue s.now

/-- Whether the end of the open slot is due at the present moment. -/
def State.slotDue (s : State) : Bool := reached s.cadence.slotEnd s.now

/-- The open slot, ended. -/
def State.endOpenSlot (s : State) : State :=
  match s.cadence.slotIndex with
  | some i => s.endSlot i
  | none   => s.closeSlot

/-- What an idle moment brings (log entry 5): a timer event that is due, or one microsecond. When the slot's end and the
watchdog's expiry fall on one moment, a free value says which comes first (log entry 6). -/
def State.tick (s : State) : State :=
  if s.resetAsserted then { s with now := s.now + 1 }
  else if s.expiryDue && (!s.slotDue || Config.expiryFirst s.now) then s.expire
  else if s.slotDue then s.endOpenSlot
  else { s with now := s.now + 1 }

end Sys2Proof.Machine
end

