-- ==== Sys2Proof/Safety.lean ====
section
/-! DEFINITION. What a sound state of the part is, in the terms the statements use: the invariants that the manual's prose
states of the table, the Spare Pool, the demand port, the Write-back Queue, the Patrol Engine, the counters and DRAM. -/

namespace Sys2Proof.Machine

/-- An outcome that is a next state. -/
def IsNext (o : Host.Outcome State Fault Refusal) : Prop := ∃ t, o = .next t

/-- An invariant that every step from every state keeps. -/
def KeptByStep (inv : State → Prop) : Prop := ∀ s t : State, inv s → step s = .next t → inv t

/-! ### Frames -/

/-- Nothing outside one channel, the table and the alert cause set differs. -/
def State.OnlyChannel (s t : State) (ch : ChanId) : Prop :=
  { t with table := s.table, chans := s.chans, causes := s.causes } = s ∧ ∀ c : ChanId, c ≠ ch → t.chan c = s.chan c

/-- Every codeword of a channel's DRAM outside the given locations' codewords of a set holds what it held. -/
def Channel.DramKeptBut (c d : Channel) (locs : List Loc) (cws : CwSet) : Prop :=
  ∀ a : Nat, (∀ l ∈ locs, ∀ i : CwIndex, CwSet.has cws i = true → a ≠ cwAddress (c.physical l) i) →
    dramGet d.dram a = dramGet c.dram a

/-- Each location holds, at each codeword that a plan writes, what the plan writes there. -/
def Channel.DramHolds (d : Channel) (ch : ChanId) (locs : List Loc) (plan : Vector CwWrite 8) : Prop :=
  ∀ l ∈ locs, ∀ (i : CwIndex) (w : Codeword), (plan.get i).content = some w → d.cwAt ch l i = w

/-! ### Offers to a Write-back Queue -/

/-- A Write-back Queue takes an offer (R92): the offer replaces the content of the entry for its location and codeword, which
keeps its place, or joins the tail of fewer than four entries. -/
inductive WbqTakes : List WbEntry → WbEntry → List WbEntry → Prop
  | replaces (q : List WbEntry) (e : WbEntry) : (∃ x ∈ q, x.loc = e.loc ∧ x.cw = e.cw) →
      WbqTakes q e (q.map (fun x => if x.loc = e.loc ∧ x.cw = e.cw then { x with content := e.content } else x))
  | joins (q : List WbEntry) (e : WbEntry) : (∀ x ∈ q, ¬ (x.loc = e.loc ∧ x.cw = e.cw)) → q.length < 4 →
      WbqTakes q e (q ++ [e])

/-- A Write-back Queue is full for an offer: four entries, none of them for its location and codeword (R92). -/
def WbqFullFor (q : List WbEntry) (e : WbEntry) : Prop :=
  (∀ x ∈ q, ¬ (x.loc = e.loc ∧ x.cw = e.cw)) ∧ 4 ≤ q.length

/-- Offers of origin DEMAND, in order: one that finds the queue full is dropped (R92). -/
inductive DemandOffers : List WbEntry → List WbEntry → List WbEntry → Prop
  | done (q : List WbEntry) : DemandOffers q [] q
  | taken (q q' r es : List WbEntry) (e : WbEntry) : WbqTakes q e q' → DemandOffers q' es r → DemandOffers q (e :: es) r
  | dropped (q r es : List WbEntry) (e : WbEntry) : WbqFullFor q e → DemandOffers q es r → DemandOffers q (e :: es) r

/-- Offers of origin PATROL, in order: the first that finds the queue full is held, and so are those behind it, which are not
offered (R92, R111, R114). The last two lists are the queue and the held offers that this leaves. -/
inductive PatrolOffers : List WbEntry → List WbEntry → List WbEntry → List WbEntry → Prop
  | done (q : List WbEntry) : PatrolOffers q [] q []
  | taken (q q' r h es : List WbEntry) (e : WbEntry) : WbqTakes q e q' → PatrolOffers q' es r h →
      PatrolOffers q (e :: es) r h
  | held (q es : List WbEntry) (e : WbEntry) : WbqFullFor q e → PatrolOffers q (e :: es) q (e :: es)

/-- An operation that leaves the consecutive-demand count at n drops the entries and held offers of a test (R93, R115). If no
entry leaves, the queue is as it was and nothing is offered again; if one does, the held offers that are left are offered
again (R114), and the count becomes 0 where no entry stays, also where held offers join (R97; DESIGN CHOICE, log entry 26). -/
def Channel.Drops (c d : Channel) (n : Nat) (p : WbEntry → Bool) : Prop :=
  d.patrol = { c.patrol with held := d.patrol.held, current := d.patrol.current } ∧
    ((∀ e ∈ c.wbq, p e = false) →
      d.wbq = c.wbq ∧ d.patrol.held = c.patrol.held.filter (fun e => !p e) ∧ d.demandCount = n) ∧
    ((∃ e ∈ c.wbq, p e = true) →
      PatrolOffers (c.wbq.filter (fun e => !p e)) (c.patrol.held.filter (fun e => !p e)) d.wbq d.patrol.held ∧
        d.demandCount = if ∀ e ∈ c.wbq, p e = true then 0 else n)

/-- The entries and held offers at a slot. -/
def WbEntry.atSlot (i : SlotId) (e : WbEntry) : Bool := decide (e.loc = .slot i)

/-! ### Slots that change state -/

/-- A read in flight once the slots of its channel stand as in another: it is marked when its slot has changed state, and
not otherwise (R142). -/
def Channel.movedBy (c d : Channel) (f : Flight) : Flight :=
  { f with moved := f.moved || (match f.loc with
    | .slot i => decide (c.slots.get i ≠ d.slots.get i)
    | .line _ => false) }

/-- The reads in flight once one slot has changed state (R142). -/
def markMoved (i : SlotId) (fs : List Flight) : List Flight :=
  fs.map (fun f => if f.loc = .slot i then { f with moved := true } else f)

/-- The reads in flight once their channel's migration has ended without a commit (R163). -/
def markLate (fs : List Flight) : List Flight :=
  fs.map (fun f => { f with kind := match f.kind with
    | .copy _ => .copy true
    | .verify _ => .verify true
    | .demand n => .demand n
    | .merge n => .merge n
    | .patrol => .patrol })

/-! ### The demand queue -/

/-- A place of a demand queue that has left the head (R81): its request is refused, is a write with an empty mask, or is a
read or a write that has been issued. -/
def QEntry.HasLeft (q : QEntry) : Prop :=
  (∃ r, q.stage = .refused r) ∨ q.stage = .readIssued ∨ (∃ o d m, q.stage = .readDone o d m) ∨
    (∃ o, q.stage = .written o) ∨ (q.stage = .waiting ∧ ∃ d, q.req.kind = .write d 0)

/-- Something holds back a write at the head that would reach the given locations (R81): a demand read or merge read of one of
them in flight, or a poison write to one of them that a demand read owes. -/
def Channel.HoldsBack (c : Channel) (locs : List Loc) : Prop :=
  (∃ f ∈ c.flights, (∃ n, f.kind = .demand n ∨ f.kind = .merge n) ∧ f.loc ∈ locs) ∨
    ∃ o ∈ c.owed, (∃ n, o.owner = .demand n) ∧ o.loc ∈ locs

/-! ### The maintenance link -/

/-- Byte n of a response (R188, R189, R190). -/
def Response.byteAt (r : Response) (n : Nat) : Byte :=
  if n = 0 then r.code
  else if n = 1 then
    match r.result with
    | .ok => 0x00 | .accepted => 0x01 | .clamped => 0x02 | .busy => 0x03 | .notReady => 0x04 | .range => 0x05
    | .state => 0x06 | .notFound => 0x07 | .exists => 0x08 | .full => 0x09 | .noSpare => 0x0A | .unknown => 0x0B
    | .checkError => 0x0C | .short => 0x0D
  else if n = 2 then r.summary
  else if n < 23 then r.payload.extractLsb' (8 * (22 - n)) 8
  else checkByte (r.code ++ (r.result.byte ++ (r.summary ++ r.payload)))

/-- The rows that are transactions of the maintenance link. -/
def onLink : Instr → Bool
  | .requestArrival _ _ | .responseDeparture _ | .demandReadIssue _ | .demandWriteIssue _ | .mergeReadIssue _
  | .mergeReadDecode _ _ | .mergeWriteIssue _ | .poisonWriteIssue _ | .writeBackIssue _ | .fillWriteIssue _
  | .copyReadIssue _ | .copyReadDecode _ _ | .copyWriteIssue _ | .verifyReadIssue _ | .verifyReadDecode _ _
  | .patrolIssueStep _ | .patrolReadDecode _ _ | .patrolReadFinish _ | .demandReadDecode _ _ | .slotEnd | .beat
  | .watchdogExpiry | .resetAssert | .resetEnd _ => false
  | _ => true

/-- The link takes transactions: RESET is not held, and no low period is being ignored (R187, R203). -/
def State.LinkReady (s : State) : Prop := s.resetAsserted = false ∧ s.shift = .empty

/-- A state `u` in which a good transaction that found `s` has been answered: the response, the link error count 0, and the
bits of the earlier response on SDO; all else is as in `u` (R182, R184, R186, R190). -/
def State.withAnswer (u s : State) (extra : Nat) (code : Byte) (r : Result) (p : BitVec 160) : State :=
  { u with
    response := { code := code, result := r, summary := summaryByte u.alertLine 0, payload := p }
    linkErrors := 0
    sdo := sdoBits s.response (192 + extra) }

/-- The results that refuse a command (R188). -/
def Result.isRefusal : Result → Bool
  | .busy | .notReady | .range | .state | .notFound | .exists | .full | .noSpare | .unknown => true
  | .ok | .accepted | .clamped | .checkError | .short => false

/-- Payload byte n (R189). -/
def payloadByte (p : BitVec 160) (n : Nat) : Byte := p.extractLsb' (8 * (19 - n)) 8

/-- Payload bytes n to n + 1, most significant first (R189). -/
def payloadHalf (p : BitVec 160) (n : Nat) : BitVec 16 := p.extractLsb' (8 * (18 - n)) 16

/-- Payload bytes n to n + 3, most significant first (R189). -/
def payloadQuad (p : BitVec 160) (n : Nat) : BitVec 32 := p.extractLsb' (8 * (16 - n)) 32

/-! ### The pairs of positions whose columns XOR to the marker's syndrome -/

/-- The 22 pairs that R11 lists. -/
def markerPairs : List (BitPos × BitPos) :=
  [(0, 59), (1, 58), (2, 16), (3, 17), (4, 57), (5, 13), (25, 34), (28, 33), (29, 32), (6, 14), (7, 11)] ++
  [(8, 12), (9, 69), (10, 56), (15, 68), (18, 67), (19, 66), (40, 49), (43, 48), (44, 47), (60, 64), (61, 65)]

/-- Two positions are one of those pairs. -/
def pairedPositions (p q : BitPos) : Bool := markerPairs.contains (p, q) || markerPairs.contains (q, p)

/-! ### The Defect Record Table -/

/-- The ranges of a record's numbers (R15). -/
def Record.InRange (r : Record) : Prop := r.score ≤ 1023 ∧ r.rep ≤ 255 ∧ r.age ≤ 255

/-- The table in ascending key order, no key twice, at most 1,024 records, every number in its range (R15, R17). -/
def State.TableSound (s : State) : Prop :=
  s.table.Pairwise (fun a b => Key.lt a.key b.key = true) ∧ s.table.length ≤ 1024 ∧ ∀ r ∈ s.table, r.InRange

/-- The optional fields that each record state has (R16). -/
def Record.Shaped (r : Record) : Prop :=
  match r.state with
  | .watch | .hot | .retired => r.spareSlot = none ∧ r.targetSlot = none ∧ r.priorState = none
  | .spared => r.spareSlot.isSome = true ∧ r.targetSlot = none ∧ r.priorState = none
  | .sparing =>
      r.targetSlot.isSome = true ∧ r.priorState.isSome = true ∧
        (r.spareSlot.isSome = true ↔ r.priorState = some .spared)

/-- A delivery for one line leaves the other records as they were, but for a record of the channel that a selection takes into
SPARING; of a sound table only a record that may be evicted can go (R22, R26, R147). -/
def State.TableKeptBut (s t : State) (ch : ChanId) (line : Nat) : Prop :=
  (∀ r ∈ t.table, r.key ≠ { channel := ch, line := line } → r.key.channel ≠ ch ∨ r.state ≠ .sparing → r ∈ s.table) ∧
    (s.TableSound → ∀ r ∈ s.table, r.evictable = false → ∃ q ∈ t.table, q.key = r.key)

/-- No cause changes but those named. -/
def State.CausesKeptBut (s t : State) (ks : List Cause) : Prop :=
  ∀ k : Cause, k ∉ ks → hasCause t.causes k = hasCause s.causes k

/-! ### Deliveries and captures -/

/-- A record after the events of a delivery, applied in codeword index order (R22). -/
def Record.afterEvents (r : Record) (w : Settings) (p : Policy) (reps : Vector Report 8) : Record :=
  (List.finRange 8).foldl (fun x i => (x.applyEvent w p i (reps.get i).verdict).1) r

/-- A delivery turned spare_wanted from no to yes on a record that automatic sparing may take, which gives the notice that
makes the Migration Unit select (R38, R52). -/
def Record.NoticeGiven (before after : Record) (p : Policy) : Prop :=
  before.spareWanted = false ∧ after.spareWanted = true ∧ after.hold = false ∧ p.autoSpare = true ∧
    (after.state = .watch ∨ after.state = .hot ∨ after.state = .spared)

/-- A record that an eviction takes before every other candidate: WATCH, not pinned, no poison; the lowest score, then the
largest age, then the lowest key (R26). -/
def Record.EvictedFrom (v : Record) (t : List Record) : Prop :=
  v ∈ t ∧ v.state = .watch ∧ v.pinned = false ∧ v.poison = 0 ∧
    ∀ x ∈ t, x ≠ v → x.state = .watch → x.pinned = false → x.poison = 0 →
      v.score < x.score ∨ (v.score = x.score ∧ (x.age < v.age ∨ (v.age = x.age ∧ Key.lt v.key x.key = true)))

/-- The table after a delivery that turned the record r, the line's own or a new one, into q (R22, R25, R26). -/
def State.TableTakes (s : State) (ch : ChanId) (n : Nat) (o : Origin) (r q : Record) (l : List Record) : Prop :=
  (s.rec? ch n = some r ∧ l = s.table.map (fun x => if x.key = { channel := ch, line := n } then q else x)) ∨
    (s.rec? ch n = none ∧
      r = { key := { channel := ch, line := n }, state := .watch, score := 0, lastBit := none, rep := 0, age := 0
            poison := 0, spareSlot := none, targetSlot := none, priorState := none, pinned := false, hold := false
            spareWanted := false, origin := o } ∧
      ((s.table.length < 1024 ∧ l = insertRec s.table q) ∨
        (1024 ≤ s.table.length ∧ ∃ v : Record, v.EvictedFrom s.table ∧
          l = insertRec (s.table.filter (fun x => x.key != v.key)) q)))

/-- What a decode that makes a delivery leaves of the table, the slots, the migration and the exhaustion flag is what the
delivery, with the selection it may bring about, leaves of them (R22, R147). -/
def State.Delivers (s t : State) (ch : ChanId) (n : Nat) (src : ReadSource) (reps : Vector Report 8) : Prop :=
  t.table = (s.deliver ch n src reps).table ∧
    (t.chan ch).slots = ((s.deliver ch n src reps).chan ch).slots ∧
    (t.chan ch).migration = ((s.deliver ch n src reps).chan ch).migration ∧
    (t.chan ch).exhausted = ((s.deliver ch n src reps).chan ch).exhausted ∧
    hasCause t.causes .tableFull = hasCause (s.deliver ch n src reps).causes .tableFull ∧
    hasCause t.causes .spareExhausted = hasCause (s.deliver ch n src reps).causes .spareExhausted

/-- The capture record that the event of one codeword fills (R167, R168). -/
def captureEntry (src : ReadSource) (line : Nat) (loc : Loc) (tag : Option Byte) (cls : MemClass) (i : CwIndex)
    (rep : Report) : Capture :=
  { outcome := if rep.verdict = .uncorrectable then .ue else .ce
    source := src
    line := line
    codeword := i
    bit := match rep.verdict with
      | .corrected p => some p
      | _ => none
    syndrome := rep.syndrome
    tag := tag
    cls := cls
    slot := match loc with
      | .slot x => some x
      | .line _ => none }

/-- The events of one read at Capture and Alert: the counts rise by the CEs and the UEs, a UE raises the cause of the key's
class, and the capture record takes the first UE unless it holds one, else the first CE if it is empty (R168, R169, R172,
R174). -/
def State.HandsOver (s t : State) (ch : ChanId) (src : ReadSource) (line : Nat) (loc : Loc) (tag : Option Byte)
    (reps : Vector Report 8) : Prop :=
  ((s.chan ch).ceCount ≤ 65535 → (t.chan ch).ceCount =
    min 65535 ((s.chan ch).ceCount + (List.finRange 8).countP (fun i => (reps.get i).verdict.isCe))) ∧
  ((s.chan ch).ueCount ≤ 65535 → (t.chan ch).ueCount =
    min 65535 ((s.chan ch).ueCount + (List.finRange 8).countP (fun i => (reps.get i).verdict == .uncorrectable))) ∧
  (hasCause t.causes .ue = true ↔ hasCause s.causes .ue = true ∨
    ((∃ i : CwIndex, (reps.get i).verdict = .uncorrectable) ∧ s.classOf ch line ≠ .critical)) ∧
  (hasCause t.causes .ueCritical = true ↔ hasCause s.causes .ueCritical = true ∨
    ((∃ i : CwIndex, (reps.get i).verdict = .uncorrectable) ∧ s.classOf ch line = .critical)) ∧
  (∀ i : CwIndex, (∀ k, (s.chan ch).capture = some k → k.outcome = .ce) → (reps.get i).verdict = .uncorrectable →
    (∀ j : CwIndex, j < i → (reps.get j).verdict ≠ .uncorrectable) →
    (t.chan ch).capture = some (captureEntry src line loc tag (s.classOf ch line) i (reps.get i))) ∧
  (∀ i : CwIndex, (s.chan ch).capture = none → (∀ j : CwIndex, (reps.get j).verdict ≠ .uncorrectable) →
    (reps.get i).verdict.isCe = true → (∀ j : CwIndex, j < i → (reps.get j).verdict.isCe = false) →
    (t.chan ch).capture = some (captureEntry src line loc tag (s.classOf ch line) i (reps.get i))) ∧
  (∀ k, (s.chan ch).capture = some k →
    k.outcome = .ue ∨ (∀ j : CwIndex, (reps.get j).verdict ≠ .uncorrectable) → (t.chan ch).capture = some k) ∧
  ((s.chan ch).capture = none →
    (∀ j : CwIndex, (reps.get j).verdict ≠ .uncorrectable ∧ (reps.get j).verdict.isCe = false) →
    (t.chan ch).capture = none)

/-- A line that a focus read may take: a HOT record of the channel whose class is patrolled (R119). -/
def State.FocusCandidate (s : State) (ch : ChanId) (l : Nat) : Prop :=
  ∃ r ∈ s.table, r.key = { channel := ch, line := l } ∧ r.state = .hot ∧ s.classOf ch l ≠ .unscrubbed

/-- A line above the focus cursor; every line is when the cursor is absent (R119). -/
def AboveCursor (cursor : Option Nat) (l : Nat) : Prop := ∀ k, cursor = some k → k < l

/-! ### What an operation leaves of its channel -/

/-- The completion of a read leaves a channel's state, line count, fill progress, credits, last response, budget and DRAM as
they were (R81, R110, R154, R159). -/
def Channel.KeptByDecode (c d : Channel) : Prop :=
  d = { c with
    queue := d.queue, owed := d.owed, flights := d.flights, wbq := d.wbq, demandCount := d.demandCount
    patrol := d.patrol, slots := d.slots, migration := d.migration, exhausted := d.exhausted
    capture := d.capture, ceCount := d.ceCount, ueCount := d.ueCount }

/-- The issue of a write changes of its channel only DRAM, the queue, the poison writes owed, the Write-back Queue, the
consecutive-demand count, the Patrol Engine's held offers and current read, and the held copy (R84, R90, R94). -/
def Channel.KeptByWrite (c d : Channel) : Prop :=
  d = { c with
    queue := d.queue, owed := d.owed, wbq := d.wbq, demandCount := d.demandCount, dram := d.dram
    patrol := { c.patrol with held := d.patrol.held, current := d.patrol.current }, migration := d.migration } ∧
  d.migration.map (fun m => { m with held := none }) = c.migration.map (fun m => { m with held := none })

/-! ### The Spare Pool and the migrations -/

/-- A record names a slot in spare_slot or in target_slot. -/
def Record.names (r : Record) (i : SlotId) : Prop := r.spareSlot = some i ∨ r.targetSlot = some i

/-- A slot is ALLOCATED exactly when a record of its channel names it (R16). -/
def State.SlotsNamed (s : State) : Prop :=
  ∀ (ch : ChanId) (i : SlotId),
    (s.chan ch).slots.get i = .allocated ↔ ∃ r ∈ s.table, r.key.channel = ch ∧ r.names i

/-- No slot is named twice (R16). -/
def State.SlotsUnique (s : State) : Prop :=
  s.table.Pairwise (fun a b => a.key.channel = b.key.channel → ∀ i, ¬ (a.names i ∧ b.names i)) ∧
    ∀ r ∈ s.table, ∀ i, ¬ (r.spareSlot = some i ∧ r.targetSlot = some i)

/-- A migration is of the one SPARING record of its channel, with that record's target slot and location (R29, R146). -/
def State.MigrationOf (s : State) (ch : ChanId) (m : Migration) : Prop :=
  ∃ r ∈ s.table, r.key = { channel := ch, line := m.line } ∧ r.targetSlot = some m.target ∧ m.source = r.location

/-- A channel has a SPARING record exactly while its Migration Unit is busy, and it is the record the unit works on (R29). -/
def State.MigrationsAgree (s : State) : Prop :=
  ∀ ch : ChanId,
    (∀ r ∈ s.table, r.key.channel = ch →
      (r.state = .sparing ↔ ((s.chan ch).migration.map (fun m => m.line)) = some r.key.line)) ∧
    ∀ m, (s.chan ch).migration = some m → s.MigrationOf ch m

/-- The table, the Spare Pool and the Migration Units agree (R16, R17, R29). -/
def State.SparingSound (s : State) : Prop :=
  s.TableSound ∧ (∀ r ∈ s.table, r.Shaped) ∧ s.SlotsNamed ∧ s.SlotsUnique ∧ s.MigrationsAgree

/-! ### The demand port and the Write-back Queue -/

/-- Each channel's queue places and credits number 32 together (R78, R80). -/
def State.CreditsSound (s : State) : Prop :=
  ∀ ch : ChanId, (s.chan ch).credits + (s.chan ch).queue.length = 32

/-- A Write-back Queue holds at most four entries, no two for one location and codeword (R91, R92). -/
def Channel.WbqSound (c : Channel) : Prop :=
  c.wbq.length ≤ 4 ∧ c.wbq.Pairwise (fun a b => a.same b = false)

/-- Every channel's Write-back Queue is sound. -/
def State.WbqsSound (s : State) : Prop := ∀ ch : ChanId, (s.chan ch).WbqSound

/-! ### The Patrol Engine -/

/-- What R100, R101, R107 and R123 say of a Patrol Engine and its channel. -/
def Channel.PatrolSound (c : Channel) : Prop :=
  (c.patrol.state = .running ∨ c.patrol.state = .halting → c.state = .online) ∧
  (c.patrol.state = .idle ∨ c.patrol.state = .done → c.patrol.current = none) ∧
  (c.patrol.state = .halting → c.patrol.current.isSome = true) ∧
  (c.patrol.startWait = true → c.patrol.state = .running ∧ c.patrol.current = none) ∧
  (c.patrol.current = none → c.patrol.held = [] ∧ ∀ o ∈ c.owed, o.owner ≠ .patrol) ∧
  (c.patrol.position = 0 ∨ c.patrol.position < c.visible) ∧
  (c.flights.filter (fun f => f.kind == .patrol)).length ≤ 1 ∧
  (∀ f ∈ c.flights, f.kind = .patrol → ∃ r, c.patrol.current = some r ∧ r.decoded = false)

/-- Every channel's Patrol Engine is sound. -/
def State.PatrolsSound (s : State) : Prop := ∀ ch : ChanId, (s.chan ch).PatrolSound

/-! ### Numbers in their ranges -/

/-- A channel's numbers (R73, R75, R97, R99, R133, R172). -/
def Channel.InRange (c : Channel) : Prop :=
  (c.physLines = 0 ∨ 1024 ≤ c.physLines ∧ c.physLines ≤ 268435456) ∧ c.fillProgress ≤ c.physLines ∧
    c.demandCount ≤ 8 ∧ c.budget ≤ 15 ∧ c.patrol.pass ≤ 65535 ∧ c.patrol.focusCount ≤ 64 ∧
    c.ceCount ≤ 65535 ∧ c.ueCount ≤ 65535

/-- The settings' ranges (R194). -/
def Settings.InRange (c : Settings) : Prop :=
  (1 ≤ c.wCe ∧ c.wCe ≤ 255) ∧ (1 ≤ c.wRepeat ∧ c.wRepeat ≤ 255) ∧ (1 ≤ c.decayShift ∧ c.decayShift ≤ 7) ∧
    c.focusInterval ≤ 64 ∧ (1 ≤ c.slotLen ∧ c.slotLen ≤ 1000) ∧ (2 ≤ c.slotCount ∧ c.slotCount ≤ 32) ∧
    (100 ≤ c.cadenceTimeout ∧ c.cadenceTimeout ≤ 100000) ∧ (1 ≤ c.yieldLevel ∧ c.yieldLevel ≤ 32) ∧
    (1 ≤ c.linkErrorLimit ∧ c.linkErrorLimit ≤ 15)

/-- A policy's ranges (R63). -/
def Policy.InRange (p : Policy) : Prop := 1 ≤ p.tHot ∧ p.tHot ≤ p.tSpare ∧ p.tSpare ≤ 1023

/-- Every number of the part in its range. -/
def State.NumbersSound (s : State) : Prop :=
  s.settings.InRange ∧ (∀ c : MemClass, (s.policy c).InRange) ∧ (∀ p : Phase, (s.profile p).ops ≤ 15) ∧
    s.linkErrors ≤ 15 ∧ ∀ ch : ChanId, (s.chan ch).InRange

/-! ### The Cadence Unit -/

/-- The slot index lies within the frame, is present with the slot end, and every budget is 0 while no slot is open; the
watchdog reference is present exactly while frames come from BEAT (R124, R125). -/
def State.CadenceSound (s : State) : Prop :=
  s.cadence.slotIndex.isSome = s.cadence.slotEnd.isSome ∧
  (∀ i, s.cadence.slotIndex = some i → i < s.cadence.frameSlots) ∧
  (2 ≤ s.cadence.frameSlots ∧ s.cadence.frameSlots ≤ 32) ∧
  (2 ≤ s.settings.slotCount ∧ s.settings.slotCount ≤ 32) ∧
  (s.cadence.slotIndex = none → ∀ ch : ChanId, (s.chan ch).budget = 0) ∧
  (s.cadence.activeSource = .internal → s.resetAsserted = false → s.cadence.slotIndex.isSome = true) ∧
  (s.cadence.watchdogRef.isSome = true ↔ s.cadence.activeSource = .external) ∧
  (s.cadence.activeSource = .external → s.settings.cadenceSource = .external)

/-- A frame has begun: its slot count, its phase and its slot 0 (R125). -/
def State.FrameBegun (s t : State) : Prop :=
  t.cadence.frameSlots = s.settings.slotCount ∧
  t.cadence.activePhase = s.cadence.pendingPhase.getD s.cadence.activePhase ∧ t.cadence.pendingPhase = none ∧
  t.cadence.slotIndex = some 0 ∧ t.cadence.slotEnd = some (t.now + s.settings.slotLen)

/-- The budget that R134 and R135 give a channel in a slot of a phase. -/
def State.budgetOf (s : State) (ch : ChanId) (p : Phase) (slot : Nat) : Nat :=
  if s.settings.yieldLevel ≤ (s.chan ch).queue.length then 0
  else if (s.profile p).mask.getLsbD slot then (s.profile p).ops else 0

/-! ### DRAM -/

/-- Every channel's DRAM image in its canonical form. -/
def State.DramSound (s : State) : Prop := ∀ ch : ChanId, dramWf (s.chan ch).dram = true

/-! ### The pending phase -/

/-- A pending phase is never the active one (R132). -/
def State.PhaseSound (s : State) : Prop := s.cadence.pendingPhase ≠ some s.cadence.activePhase

end Sys2Proof.Machine
end

