-- ==== Sys2Proof/Certificates/Slice0/Obligations.lean ====
section
/-! DEFINITION. The statements for the provers, in the order of the manual's chapters. A statement says in its docstring
which rules it formalises; OBLIGATIONS.json lists them. -/

open Sys2Proof Sys2Proof.Machine

/-! ### The machine -/

/-- A step takes the command at the front of the queue and runs it with the queue's rest. On an empty queue it lets time
pass: one microsecond while RESET is held or no timer is due, else the slot end or the watchdog expiry that is due, and
either when both are due at the moment. The queue and the passing of time are the model's own (log entries 1, 5 and 6). -/
def Obligations.StepRunsFrontCommand : Prop :=
  (∀ (c : Instr) (rest : List Instr) (s : State),
    step { s with pending := c :: rest } = exec c { s with pending := rest }) ∧
  ∀ s : State, s.pending = [] →
    (s.resetAsserted = true → step s = .next { s with now := s.now + 1 }) ∧
    (s.resetAsserted = false →
      ((∀ e, s.cadence.slotEnd = some e → s.now < e) →
        (∀ r, s.cadence.watchdogRef = some r → s.now < r + s.settings.cadenceTimeout) →
        step s = .next { s with now := s.now + 1 }) ∧
      (∀ i e : Nat, s.cadence.slotIndex = some i → s.cadence.slotEnd = some e → e ≤ s.now →
        (∀ r, s.cadence.watchdogRef = some r → s.now < r + s.settings.cadenceTimeout) →
        step s = exec .slotEnd s) ∧
      (∀ r : Nat, s.cadence.watchdogRef = some r → r + s.settings.cadenceTimeout ≤ s.now →
        (∀ e, s.cadence.slotEnd = some e → s.now < e) → step s = exec .watchdogExpiry s) ∧
      (∀ i r : Nat, s.cadence.slotIndex = some i → s.cadence.slotEnd = some s.now →
        s.cadence.watchdogRef = some r → r + s.settings.cadenceTimeout = s.now →
        step s = exec .slotEnd s ∨ step s = exec .watchdogExpiry s))

/-- No command is refused for want of a meaning, and every command leaves the queue of waiting commands alone; a command that
issues no operation to DRAM always answers a next state. The model's own conventions: the queue (log entry 1), the next state
of an event that cannot take place now (log entry 4) and the fault of an operation at no line of the channel (log entry 7).
-/
def Obligations.CommandsCompleteAndKeepQueue : Prop :=
  ∀ (i : Instr) (s : State),
    (∀ r, exec i s ≠ .refused r) ∧
    (∀ t, exec i s = .next t → t.pending = s.pending) ∧
    (∀ f, exec i s = .fault f →
      ∃ ch, i = .demandReadIssue ch ∨ i = .demandWriteIssue ch ∨ i = .mergeReadIssue ch ∨ i = .mergeWriteIssue ch ∨
        i = .poisonWriteIssue ch ∨ i = .writeBackIssue ch ∨ i = .fillWriteIssue ch ∨ i = .copyReadIssue ch ∨
        i = .copyWriteIssue ch ∨ i = .verifyReadIssue ch ∨ i = .patrolIssueStep ch)

/-! ### The correcting code -/

/-- The columns of the 72 positions, in R4's words; the syndrome of a codeword is the XOR of the columns whose bit is 1 (R5,
R6), and a line read reports each codeword as the part's writes left it, with its upset bits inverted (R9). Encoded data
read back unchanged is CLEAN with syndrome 0 and its data (R5, R6, R7, R8); the poison marker reads POISON with syndrome
0x3C and zero data (R10), and no encoding is the marker. -/
def Obligations.EncodedDataReadsCleanAndMarkerPoison : Prop :=
  (∀ (p : BitPos) (ones : Nat → List Nat),
    (∀ k, ones k = (List.range 256).filter (fun n => (List.range 8).countP (fun b => n.testBit b) == k)) →
    (p.val < 56 → (ones 3)[p.val]? = some (column p).toNat) ∧
    (56 ≤ p.val → p.val < 64 → (ones 5)[p.val - 56]? = some (column p).toNat) ∧
    (64 ≤ p.val → (column p).toNat = 2 ^ (p.val - 64))) ∧
  (∀ w : Codeword, syndrome w =
    (List.finRange 72).foldl (fun x p => if w.getLsbD p.val then x ^^^ column p else x) 0) ∧
  (∀ (words upsets : LineWords) (i : CwIndex),
    (reportsOf words upsets).get i = report (words.get i ^^^ upsets.get i)) ∧
  (∀ d : Data, report (encode d) = { verdict := .clean, syndrome := 0, data := d, fixed := none }) ∧
  report marker = { verdict := .poison, syndrome := 0x3C, data := 0, fixed := none } ∧
  ∀ d : Data, encode d ≠ marker

/-- One inverted bit is CORRECTED at its position with the data that was written; two inverted bits are UNCORRECTABLE, or
POISON exactly at the 22 listed pairs, with the XOR of the two columns, non-zero and no column, as syndrome (R11). -/
def Obligations.SingleAndDoubleBitErrors : Prop :=
  (∀ (d : Data) (p : BitPos), report (flipBit (encode d) p) =
    { verdict := .corrected p, syndrome := column p, data := d, fixed := some (encode d) }) ∧
  (∀ (d : Data) (p q : BitPos), p ≠ q →
    (report (flipBit (flipBit (encode d) p) q)).syndrome = column p ^^^ column q ∧
    column p ^^^ column q ≠ 0 ∧ (∀ k : BitPos, column p ^^^ column q ≠ column k) ∧
    (column p ^^^ column q = 0x3C ↔ pairedPositions p q = true) ∧
    (report (flipBit (flipBit (encode d) p) q)).verdict =
      if pairedPositions p q then .poison else .uncorrectable) ∧
  markerPairs.length = 22 ∧ (markerPairs.flatMap (fun x => [x.1, x.2])).Nodup ∧
  ((List.finRange 72).flatMap (fun p => ((List.finRange 72).filter (fun q => decide (p < q))).map
    (fun q => (p, q)))).length = 2556

/-! ### Transactions of the maintenance link -/

/-- The transaction of a command, with as many discarded bits before it as the command says, is read as that command again
(R181, R182, R183, R189, R192). -/
def Obligations.TransactionRoundTrip : Prop :=
  ∀ (i : Instr) (before bits : List Bool), i.wellFormed = true → before.length = i.extra →
    i.transaction? before = some bits → decodeTransaction bits = i

/-- A low period of fewer than 192 bits is SHORT; a frame with a wrong check byte is a CHECK_ERROR with its byte 0, whatever
was clocked before it; a good frame whose code the command table does not assign is UNKNOWN with that code (R182, R183,
R185). -/
def Obligations.UnreadableTransactions : Prop :=
  (∀ bits : List Bool, bits.length < 192 → decodeTransaction bits = .linkShort bits.length) ∧
  (∀ (before : List Bool) (f : Frame), Frame.byte f 23 ≠ checkByte (Frame.body f) →
    decodeTransaction (before ++ f.bits) = .linkCheckError before.length (Frame.byte f 0)) ∧
  (∀ (before : List Bool) (f : Frame), Frame.byte f 23 = checkByte (Frame.body f) →
    Frame.byte f 0 ∉ assignedCodes →
    decodeTransaction (before ++ f.bits) = .unknown before.length (Frame.byte f 0))

/-- The manual's own transactions: all zeros is a good NOP; STATUS page 0 has check byte 0xE3, and any other check byte makes
it a CHECK_ERROR with code 0x01 (R183). -/
def Obligations.TransactionsOfTheManual : Prop :=
  decodeTransaction (List.replicate 192 false) = .nop 0 ∧
  decodeTransaction (Frame.bits (0x01#8 ++ (0#176 ++ 0xE3#8))) = .status 0 0 ∧
  ∀ b : Byte, b ≠ 0xE3 → decodeTransaction (Frame.bits (0x01#8 ++ (0#176 ++ b))) = .linkCheckError 0 0x01

/-- A short transaction and a failed check are link errors: the count rises by 1 up to 15, LINK_FAULT is raised when it then
stands at or above the limit, and the response carries the result, the code and the count; nothing else changes (R182,
R183, R186, R190). What SDO carries while n bits are clocked: the 24 bytes of the pending response, each most significant bit
first, as far as n goes, and 1 after the 192nd bit (R182, R184); byte by byte the code, the result's code, the summary, the
20 payload bytes and the CRC-8 of R183 over those 23 (R188, R189, R190); the summary has the ALERT line in bit 7 and the
count in bits 3 to 0 (R190). -/
def Obligations.LinkErrorsCountAndAnswer : Prop :=
  (∀ (r : Response) (n : Nat), (sdoBits r n).length = n ∧
    ∀ i : Nat, i < n → (sdoBits r n)[i]? =
      some (if i < 192 then (r.byteAt (i / 8)).getLsbD (7 - i % 8) else true)) ∧
  (∀ body : BitVec 184, checkByte body = (List.range 184).foldl
    (fun (c : Byte) i => if c.getLsbD 7 ≠ body.getLsbD (183 - i) then (c <<< 1) ^^^ 0x31 else c <<< 1) 0) ∧
  (∀ (alert : Bool) (n : Nat), n ≤ 15 → (summaryByte alert n).getLsbD 7 = alert ∧
    (summaryByte alert n).extractLsb' 4 3 = 0 ∧ ((summaryByte alert n).extractLsb' 0 4).toNat = n) ∧
  ∀ (s u : State) (n : Nat), s.LinkReady → n = min 15 (s.linkErrors + 1) →
    u = { s with causes := if s.settings.linkErrorLimit ≤ n then s.causes ||| Cause.linkFault.single else s.causes } →
    (∀ bits : Nat, exec (.linkShort bits) s = .next { u with
      response := { code := 0, result := .short, summary := summaryByte u.alertLine n, payload := 0 }
      linkErrors := n
      sdo := sdoBits s.response bits }) ∧
    (∀ (extra : Nat) (code : Byte), exec (.linkCheckError extra code) s = .next { u with
      response := { code := code, result := .checkError, summary := summaryByte u.alertLine n, payload := 0 }
      linkErrors := n
      sdo := sdoBits s.response (192 + extra) })

/-- While RESET is held a low period that ends is no transaction (R203), and the model shows no bits for it, also where it
began before RESET was asserted (the model's choice, log entry 9); the low period that was in progress when the reset ended
is no transaction either, and what SDO carries in it is a free value (R187, log entry 9). -/
def Obligations.LinkIgnoresResetPeriods : Prop :=
  ∀ (i : Instr) (s : State), onLink i = true →
    (s.resetAsserted = true → exec i s = .next { s with sdo := [] }) ∧
    (s.resetAsserted = false → s.shift = .ignoring →
      exec i s = .next { s with shift := .empty, sdo := Config.sdoInIgnoredPeriod s.now })

/-- A refused command has no effect: the state is as it was but for the response, which has a zero payload, the link error
count and SDO (R188, and "Refused with X" of the conventions). -/
def Obligations.RefusedCommandsChangeNothing : Prop :=
  ∀ (i : Instr) (s t : State), onLink i = true → s.LinkReady → exec i s = .next t →
    t.response.result.isRefusal = true →
    t = s.withAnswer s i.extra t.response.code t.response.result 0

/-- A channel byte above 3 gives RANGE, in every command with a channel argument but NEXT (R191). -/
def Obligations.ChannelByteAboveThreeIsRange : Prop :=
  ∀ (s : State) (e : Nat) (b x y z : Byte) (l : BitVec 32) (h : BitVec 16), s.LinkReady → 4 ≤ b.toNat →
    exec (.lookup e b l) s = .next (s.withAnswer s e 0x10 .range 0) ∧
    exec (.adopt e b l x h) s = .next (s.withAnswer s e 0x12 .range 0) ∧
    exec (.pin e b l) s = .next (s.withAnswer s e 0x13 .range 0) ∧
    exec (.unpin e b l) s = .next (s.withAnswer s e 0x14 .range 0) ∧
    exec (.retire e b l) s = .next (s.withAnswer s e 0x15 .range 0) ∧
    exec (.release e b l) s = .next (s.withAnswer s e 0x16 .range 0) ∧
    exec (.clearHold e b l) s = .next (s.withAnswer s e 0x17 .range 0) ∧
    exec (.spare e b l) s = .next (s.withAnswer s e 0x20 .range 0) ∧
    exec (.cancel e b l) s = .next (s.withAnswer s e 0x21 .range 0) ∧
    exec (.spareQuery e b) s = .next (s.withAnswer s e 0x22 .range 0) ∧
    exec (.spareSlot e b h) s = .next (s.withAnswer s e 0x23 .range 0) ∧
    exec (.spareRestore e b h) s = .next (s.withAnswer s e 0x24 .range 0) ∧
    exec (.channelFill e b) s = .next (s.withAnswer s e 0x40 .range 0) ∧
    exec (.channelOnline e b) s = .next (s.withAnswer s e 0x41 .range 0) ∧
    exec (.channelOffline e b) s = .next (s.withAnswer s e 0x42 .range 0) ∧
    exec (.patrolStart e b y z l) s = .next (s.withAnswer s e 0x43 .range 0) ∧
    exec (.patrolHalt e b) s = .next (s.withAnswer s e 0x44 .range 0) ∧
    exec (.captureRead e b) s = .next (s.withAnswer s e 0x60 .range 0) ∧
    exec (.captureClear e b) s = .next (s.withAnswer s e 0x61 .range 0) ∧
    exec (.countsRead e b) s = .next (s.withAnswer s e 0x62 .range 0) ∧
    exec (.countsClear e b) s = .next (s.withAnswer s e 0x63 .range 0)

/-- NOP answers OK with a zero payload and changes nothing but the response, the link error count and SDO; the transaction
of all zeros is a NOP with a correct check byte (R199). -/
def Obligations.NopOnlyAnswers : Prop :=
  (∀ (s : State) (e : Nat), s.LinkReady → exec (.nop e) s = .next (s.withAnswer s e 0x00 .ok 0)) ∧
  (∀ before : List Bool, decodeTransaction (before ++ List.replicate 192 false) = .nop before.length)

/-- STATUS page 0 and pages 1 to 4 carry the items of R197 and R198 at their bytes and change nothing; any other page is
RANGE. -/
def Obligations.StatusPages : Prop :=
  ∀ (s : State) (e : Nat), s.LinkReady →
    (∃ p, exec (.status e 0) s = .next (s.withAnswer s e 0x01 .ok p) ∧
      payloadByte p 0 = s.cadence.activePhase.byte ∧
      payloadByte p 1 = (match s.cadence.pendingPhase with | some q => q.byte | none => 0xFF#8) ∧
      payloadByte p 2 = s.cadence.activeSource.byte ∧
      payloadByte p 3 = (match s.cadence.slotIndex with | some i => BitVec.ofNat 8 i | none => 0xFF#8) ∧
      payloadHalf p 4 = s.causes.setWidth 16 ∧
      payloadByte p 6 = BitVec.ofNat 8 s.linkErrors ∧
      payloadHalf p 7 = BitVec.ofNat 16 s.table.length ∧
      (∀ ch : ChanId, (payloadByte p 9).extractLsb' (2 * ch.val) 2 = (s.chan ch).state.code) ∧
      (∀ ch : ChanId, (payloadByte p 10).extractLsb' (2 * ch.val) 2 = (s.chan ch).patrol.state.code) ∧
      (∀ ch : ChanId, (payloadByte p 11).getLsbD ch.val = (s.chan ch).migration.isSome) ∧
      (payloadByte p 11).extractLsb' 4 4 = 0 ∧ p.extractLsb' 0 64 = 0) ∧
    (∀ ch : ChanId, ∃ p, exec (.status e (BitVec.ofNat 8 (1 + ch.val))) s = .next (s.withAnswer s e 0x01 .ok p) ∧
      payloadByte p 0 = BitVec.ofNat 8 ch.val ∧
      payloadByte p 1 = (s.chan ch).state.code.setWidth 8 ∧
      payloadQuad p 2 = BitVec.ofNat 32 (s.chan ch).fillProgress ∧
      payloadByte p 6 = (s.chan ch).patrol.state.code.setWidth 8 ∧
      payloadByte p 7 = (s.chan ch).patrol.mode.byte ∧
      payloadQuad p 8 = BitVec.ofNat 32 (s.chan ch).patrol.position ∧
      payloadHalf p 12 = BitVec.ofNat 16 (s.chan ch).patrol.pass ∧
      payloadByte p 14 = yesNoByte (s.chan ch).migration.isSome ∧
      payloadByte p 15 = BitVec.ofNat 8 (s.chan ch).queue.length ∧
      payloadByte p 16 = BitVec.ofNat 8 (s.chan ch).budget ∧ p.extractLsb' 0 24 = 0) ∧
    (∀ page : Byte, 5 ≤ page.toNat → exec (.status e page) s = .next (s.withAnswer s e 0x01 .range 0))

/-- GET_SETTING returns the identifier and the stored value of every setting, CADENCE_SOURCE as its code and ALERT_MASK as
its set, and changes nothing; an identifier that is not in the table is RANGE, and a code that is not assigned is answered
with UNKNOWN (R185, R195). -/
def Obligations.GetSettingReadsAndUnknownAnswers : Prop :=
  ∀ (s : State) (e : Nat), s.LinkReady →
    (∀ (id : Byte) (v : Nat),
      (∃ ch : ChanId, id = BitVec.ofNat 8 ch.val ∧ v = (s.chan ch).physLines) ∨
      (id = 0x10 ∧ v = s.settings.wCe) ∨ (id = 0x11 ∧ v = s.settings.wRepeat) ∨
      (id = 0x12 ∧ v = s.settings.decayShift) ∨ (id = 0x18 ∧ v = s.settings.focusInterval) ∨
      (id = 0x20 ∧ v = s.settings.cadenceSource.byte.toNat) ∨ (id = 0x21 ∧ v = s.settings.slotLen) ∨
      (id = 0x22 ∧ v = s.settings.slotCount) ∨ (id = 0x23 ∧ v = s.settings.cadenceTimeout) ∨
      (id = 0x24 ∧ v = s.settings.yieldLevel) ∨ (id = 0x30 ∧ v = s.settings.alertMask.toNat) ∨
      (id = 0x31 ∧ v = s.settings.linkErrorLimit) →
      exec (.getSetting e id) s = .next (s.withAnswer s e 0x02 .ok (id ++ (BitVec.ofNat 32 v ++ 0#120)))) ∧
    (∀ id : Byte, id ∉ [(0x00 : Byte), 0x01, 0x02, 0x03, 0x10, 0x11, 0x12, 0x18, 0x20, 0x21, 0x22, 0x23, 0x24, 0x30,
        0x31] →
      exec (.getSetting e id) s = .next (s.withAnswer s e 0x02 .range 0)) ∧
    (∀ code : Byte, exec (.unknown e code) s = .next (s.withAnswer s e code .unknown 0))

/-! ### Settings -/

/-- SET_SETTING of a numeric setting with no behaviour of its own stores the value brought into its range, with OK or
CLAMPED, and changes nothing else; an identifier that is not in the table is RANGE (R194, R196). -/
def Obligations.NumericSettingsAreStored : Prop :=
  ∀ (s : State) (e : Nat) (v : BitVec 32), s.LinkReady →
    (∀ (id : Byte) (lo hi n : Nat) (c : Settings), n = min hi (max lo v.toNat) →
      (id = 0x10 ∧ lo = 1 ∧ hi = 255 ∧ c = { s.settings with wCe := n }) ∨
      (id = 0x11 ∧ lo = 1 ∧ hi = 255 ∧ c = { s.settings with wRepeat := n }) ∨
      (id = 0x12 ∧ lo = 1 ∧ hi = 7 ∧ c = { s.settings with decayShift := n }) ∨
      (id = 0x21 ∧ lo = 1 ∧ hi = 1000 ∧ c = { s.settings with slotLen := n }) ∨
      (id = 0x22 ∧ lo = 2 ∧ hi = 32 ∧ c = { s.settings with slotCount := n }) ∨
      (id = 0x24 ∧ lo = 1 ∧ hi = 32 ∧ c = { s.settings with yieldLevel := n }) ∨
      (id = 0x31 ∧ lo = 1 ∧ hi = 15 ∧ c = { s.settings with linkErrorLimit := n }) →
      exec (.setSetting e id v) s = .next (State.withAnswer { s with settings := c } s e 0x03
        (if n = v.toNat then .ok else .clamped) (id ++ (BitVec.ofNat 32 n ++ 0#120)))) ∧
    (∀ id : Byte, id ∉ [(0x00 : Byte), 0x01, 0x02, 0x03, 0x10, 0x11, 0x12, 0x18, 0x20, 0x21, 0x22, 0x23, 0x24, 0x30,
        0x31] →
      exec (.setSetting e id v) s = .next (s.withAnswer s e 0x03 .range 0))

/-- SET_SETTING of PHYS_LINES: STATE unless the channel is DISABLED and has no records; a value that leaves it as it stood
changes nothing else; a change of value clears the patrol's position, pass, cursor and count and the fill progress,
empties the Write-back Queue and frees every DEFECTIVE slot, which marks the reads in flight there and drops the held
offers there; the held offers that are left are offered again (R73, R101, R114, R115, R142). That a value outside the
range gives CLAMPED also where it leaves PHYS_LINES as it stood is the model's reading (log entry 19). That the count of
R97 is then 0 also where held offers join the emptied queue is the model's choice (log entry 26). -/
def Obligations.PhysLinesSetting : Prop :=
  ∀ (s : State) (e : Nat) (ch : ChanId) (v : BitVec 32) (n : Nat), s.LinkReady →
    n = (if v.toNat = 0 then 0 else min 268435456 (max 1024 v.toNat)) →
    ((s.chan ch).state ≠ .disabled ∨ (∃ r ∈ s.table, r.key.channel = ch) →
      exec (.setPhysLines e ch v) s = .next (s.withAnswer s e 0x03 .state 0)) ∧
    ((s.chan ch).state = .disabled → (∀ r ∈ s.table, r.key.channel ≠ ch) → (s.chan ch).physLines = n →
      exec (.setPhysLines e ch v) s = .next (s.withAnswer s e 0x03 (if n = v.toNat then .ok else .clamped)
        (BitVec.ofNat 8 ch.val ++ (BitVec.ofNat 32 n ++ 0#120)))) ∧
    ((s.chan ch).state = .disabled → (∀ r ∈ s.table, r.key.channel ≠ ch) → (s.chan ch).physLines ≠ n →
      ∃ t : State, exec (.setPhysLines e ch v) s = .next t ∧
        t = State.withAnswer { s with chans := t.chans } s e 0x03 (if n = v.toNat then .ok else .clamped)
          (BitVec.ofNat 8 ch.val ++ (BitVec.ofNat 32 n ++ 0#120)) ∧
        (∀ c : ChanId, c ≠ ch → t.chan c = s.chan c) ∧
        (∀ i : SlotId, (t.chan ch).slots.get i =
          if (s.chan ch).slots.get i = .defective then .free else (s.chan ch).slots.get i) ∧
        (t.chan ch).exhausted =
          ((s.chan ch).exhausted && !(s.chan ch).slots.toList.contains .defective) ∧
        PatrolOffers [] ((s.chan ch).patrol.held.filter (fun w => match w.loc with
          | .slot i => decide ((s.chan ch).slots.get i ≠ .defective)
          | .line _ => true)) (t.chan ch).wbq (t.chan ch).patrol.held ∧
        t.chan ch = { s.chan ch with
          physLines := n, fillProgress := 0, wbq := (t.chan ch).wbq, demandCount := 0
          patrol := { (s.chan ch).patrol with
            position := 0, pass := 0, focusCursor := none, focusCount := 0, held := (t.chan ch).patrol.held }
          slots := (t.chan ch).slots, exhausted := (t.chan ch).exhausted
          flights := (s.chan ch).flights.map ((s.chan ch).movedBy (t.chan ch)) })

/-- SET_SETTING of CADENCE_SOURCE: a value that names neither source is RANGE; a value that leaves it as it stood changes
nothing; a change acts on the Cadence Unit as R131's table gives. -/
def Obligations.CadenceSourceSetting : Prop :=
  ∀ (s : State) (e : Nat), s.LinkReady →
    (∀ v : BitVec 32, 2 ≤ v.toNat → exec (.setCadenceSource e v) s = .next (s.withAnswer s e 0x03 .range 0)) ∧
    (s.settings.cadenceSource = .internal →
      exec (.setCadenceSource e 0) s = .next (s.withAnswer s e 0x03 .ok (0x20#8 ++ 0#152)) ∧
      exec (.setCadenceSource e 1) s = .next (State.withAnswer { s with
        settings := { s.settings with cadenceSource := .external }
        cadence := { s.cadence with activeSource := .external, watchdogRef := some s.now } } s e 0x03 .ok
        (0x20#8 ++ (1#32 ++ 0#120)))) ∧
    (s.settings.cadenceSource = .external →
      exec (.setCadenceSource e 1) s = .next (s.withAnswer s e 0x03 .ok (0x20#8 ++ (1#32 ++ 0#120))) ∧
      (s.cadence.activeSource = .internal →
        exec (.setCadenceSource e 0) s = .next (State.withAnswer { s with
          settings := { s.settings with cadenceSource := .internal } } s e 0x03 .ok (0x20#8 ++ 0#152))) ∧
      (s.cadence.activeSource = .external → ∀ i, s.cadence.slotIndex = some i →
        exec (.setCadenceSource e 0) s = .next (State.withAnswer { s with
          settings := { s.settings with cadenceSource := .internal }
          cadence := { s.cadence with activeSource := .internal, watchdogRef := none } } s e 0x03 .ok
          (0x20#8 ++ 0#152))) ∧
      (s.cadence.activeSource = .external → s.cadence.slotIndex = none →
        ∃ t : State, exec (.setCadenceSource e 0) s = .next t ∧ s.FrameBegun t ∧ t.cadence.activeSource = .internal ∧
          t.cadence.watchdogRef = none ∧ t.settings = { s.settings with cadenceSource := .internal } ∧
          t.response.result = .ok ∧ t.response.payload = 0x20#8 ++ 0#152 ∧
          ∀ ch : ChanId, (t.chan ch).budget =
            s.budgetOf ch (s.cadence.pendingPhase.getD s.cadence.activePhase) 0))

/-- SET_SETTING of CADENCE_TIMEOUT stores the value brought into range, and the watchdog expires at the change when that much
time has passed since its reference (R128, R131); of FOCUS_INTERVAL, 0 clears every focus count (R118); of ALERT_MASK,
the bits that name no cause are left out (R176). -/
def Obligations.TimeoutFocusAndMaskSettings : Prop :=
  ∀ (s : State) (e n : Nat) (v : BitVec 32), s.LinkReady →
    (n = min 100000 (max 100 v.toNat) →
      (∀ r, s.cadence.watchdogRef = some r → s.now < r + n) →
      exec (.setCadenceTimeout e v) s = .next (State.withAnswer { s with
        settings := { s.settings with cadenceTimeout := n } } s e 0x03 (if n = v.toNat then .ok else .clamped)
        (0x23#8 ++ (BitVec.ofNat 32 n ++ 0#120)))) ∧
    (n = min 100000 (max 100 v.toNat) → n ≠ s.settings.cadenceTimeout →
      ∀ r, s.cadence.watchdogRef = some r → r + n ≤ s.now →
      ∃ t : State, exec (.setCadenceTimeout e v) s = .next t ∧ s.FrameBegun t ∧ t.cadence.activeSource = .internal ∧
        t.cadence.watchdogRef = none ∧ t.settings = { s.settings with cadenceTimeout := n } ∧
        hasCause t.causes .cadenceLost = true) ∧
    (n = min 64 v.toNat → n ≠ 0 →
      exec (.setFocusInterval e v) s = .next (State.withAnswer { s with
        settings := { s.settings with focusInterval := n } } s e 0x03 (if n = v.toNat then .ok else .clamped)
        (0x18#8 ++ (BitVec.ofNat 32 n ++ 0#120)))) ∧
    (∃ t : State, exec (.setFocusInterval e 0) s = .next t ∧
      t = State.withAnswer { s with settings := { s.settings with focusInterval := 0 }, chans := t.chans } s e 0x03 .ok
        (0x18#8 ++ 0#152) ∧
      ∀ ch : ChanId, t.chan ch = { s.chan ch with patrol := { (s.chan ch).patrol with focusCount := 0 } }) ∧
    exec (.setAlertMask e v) s = .next (State.withAnswer { s with
      settings := { s.settings with alertMask := v.setWidth 12 } } s e 0x03
      (if v.toNat < 4096 then .ok else .clamped)
      (0x30#8 ++ (BitVec.ofNat 32 (v.setWidth 12 : BitVec 12).toNat ++ 0#120)))

/-- SOFT_RESET, block by block (R200, with R18, R32, R72, R78, R95, R104, R138, R165, R180): what each block keeps and what
it starts afresh. A SPARING record returns to its prior state with hold kept, its target slot is FREE and its migration is
abandoned; the exhaustion flags are cleared, and then every Migration Unit makes its selection, after the response has been
formed (log entry 10). The held offers of a Patrol Engine but those at a target slot that becomes FREE are offered to the
emptied Write-back Queue (R114, R115). A read in flight at such a slot is marked, and a migration read in flight has
outlived its migration (R142, R163). -/
def Obligations.SoftResetRestarts : Prop :=
  ∀ (s : State) (e : Nat), s.LinkReady → ∃ t u : State, exec (.softReset e) s = .next t ∧
    t = (((u.select 0).select 1).select 2).select 3 ∧ u.causes = 0 ∧
    (s.SparingSound → u.table = s.table.map (fun r => if r.state = .sparing then { r with
      state := (match r.priorState with | some .spared => .spared | _ => .hot)
      targetSlot := none, priorState := none } else r)) ∧
    (∀ ch : ChanId, (u.chan ch).migration = none ∧ (u.chan ch).exhausted = false ∧
      (∀ i : SlotId, (u.chan ch).slots.get i =
        if (s.chan ch).migration.map (fun m => m.target) = some i then .free else (s.chan ch).slots.get i) ∧
      (u.chan ch).flights = (match (s.chan ch).migration with
        | some m => markMoved m.target (markLate (s.chan ch).flights)
        | none => (s.chan ch).flights) ∧
      (t.chan ch).flights = (u.chan ch).flights.map ((u.chan ch).movedBy (t.chan ch))) ∧
    t.response = { code := 0x0F, result := .ok, summary := 0, payload := 0 } ∧ t.linkErrors = 0 ∧
    t.settings = s.settings ∧ t.windows = s.windows ∧ t.policies = s.policies ∧ t.profiles = s.profiles ∧
    t.table.map (fun r => r.key) = s.table.map (fun r => r.key) ∧
    (t.causes = 0 ∨ t.causes = Cause.spareExhausted.single) ∧
    t.cadence.activeSource = s.cadence.activeSource ∧ t.cadence.activePhase = .closed ∧
    t.cadence.pendingPhase = none ∧ t.cadence.slotIndex = some 0 ∧
    t.cadence.slotEnd = some (s.now + s.settings.slotLen) ∧ t.cadence.frameSlots = s.settings.slotCount ∧
    (s.cadence.activeSource = .external → t.cadence.watchdogRef = some s.now) ∧
    ∀ ch : ChanId,
      (t.chan ch).state = (s.chan ch).state ∧ (t.chan ch).physLines = (s.chan ch).physLines ∧
      (t.chan ch).fillProgress = (s.chan ch).fillProgress ∧ (t.chan ch).credits = (s.chan ch).credits ∧
      (t.chan ch).queue = (s.chan ch).queue ∧ (t.chan ch).response = (s.chan ch).response ∧
      (t.chan ch).owed = (s.chan ch).owed ∧ (t.chan ch).dram = (s.chan ch).dram ∧
      (t.chan ch).demandCount = 0 ∧ (t.chan ch).capture = none ∧ (t.chan ch).ceCount = 0 ∧ (t.chan ch).ueCount = 0 ∧
      PatrolOffers [] ((s.chan ch).patrol.held.filter (fun w => match (s.chan ch).migration with
        | some m => decide (w.loc ≠ .slot m.target)
        | none => true)) (t.chan ch).wbq (t.chan ch).patrol.held ∧
      (t.chan ch).patrol.current = (s.chan ch).patrol.current.map (fun r => { r with acrossReset := true }) ∧
      (t.chan ch).budget = s.budgetOf ch .closed 0 ∧
      (t.chan ch).patrol.mode = (s.chan ch).patrol.mode ∧ (t.chan ch).patrol.position = 0 ∧
      (t.chan ch).patrol.pass = 0 ∧ (t.chan ch).patrol.focusCursor = none ∧ (t.chan ch).patrol.focusCount = 0 ∧
      (t.chan ch).patrol.startWait = false ∧
      (t.chan ch).patrol.state = (if (s.chan ch).patrol.current.isSome then .halting else .idle)

/-! ### The record commands -/

/-- The record readout and the capture readout place each field at its bytes; an empty capture record reads as zeros (R193).
-/
def Obligations.RecordReadoutFields : Prop :=
  (∀ r : Record,
    payloadByte (recordReadout r) 0 = BitVec.ofNat 8 r.key.channel.val ∧
    payloadQuad (recordReadout r) 1 = BitVec.ofNat 32 r.key.line ∧
    payloadByte (recordReadout r) 5 =
      (match r.state with | .watch => 0 | .hot => 1 | .sparing => 2 | .spared => 3 | .retired => 4) ∧
    payloadHalf (recordReadout r) 6 = BitVec.ofNat 16 r.score ∧
    payloadByte (recordReadout r) 8 = (match r.lastBit with | some p => BitVec.ofNat 8 p.val | none => 0xFF) ∧
    payloadByte (recordReadout r) 9 = BitVec.ofNat 8 r.rep ∧
    payloadByte (recordReadout r) 10 = BitVec.ofNat 8 r.age ∧
    payloadByte (recordReadout r) 11 = r.poison ∧
    payloadHalf (recordReadout r) 12 = (match r.spareSlot with | some i => BitVec.ofNat 16 i.val | none => 0xFFFF) ∧
    payloadHalf (recordReadout r) 14 = (match r.targetSlot with | some i => BitVec.ofNat 16 i.val | none => 0xFFFF) ∧
    (payloadByte (recordReadout r) 16).getLsbD 7 = r.pinned ∧
    (payloadByte (recordReadout r) 16).getLsbD 6 = r.hold ∧
    (payloadByte (recordReadout r) 16).getLsbD 5 = r.spareWanted ∧
    (payloadByte (recordReadout r) 16).extractLsb' 3 2 =
      (match r.origin with | .demand => 0 | .patrol => 1 | .migration => 2 | .host => 3) ∧
    (payloadByte (recordReadout r) 16).extractLsb' 1 2 =
      (match r.priorState with | none => 0 | some .hot => 1 | some .spared => 2) ∧
    (payloadByte (recordReadout r) 16).getLsbD 0 = false ∧ (recordReadout r).extractLsb' 0 24 = 0) ∧
  ∀ ch : ChanId, captureReadout ch none = 0 ∧ ∀ (k : Capture) (p : BitVec 160), p = captureReadout ch (some k) →
    payloadByte p 0 = 1 ∧
    payloadByte p 1 = (match k.outcome with | .ce => 0 | .ue => 1) ∧
    payloadByte p 2 = (match k.source with
      | .demandRead => 0 | .demandMerge => 1 | .patrol => 2 | .focus => 3 | .migration => 4) ∧
    payloadByte p 3 = BitVec.ofNat 8 ch.val ∧
    payloadQuad p 4 = BitVec.ofNat 32 k.line ∧
    payloadByte p 8 = BitVec.ofNat 8 k.codeword.val ∧
    payloadByte p 9 = (match k.bit with | some b => BitVec.ofNat 8 b.val | none => 0xFF) ∧
    payloadByte p 10 = k.syndrome ∧
    payloadByte p 11 = (match k.tag with | some g => g | none => 0) ∧
    (payloadByte p 12).getLsbD 0 = k.tag.isSome ∧ (payloadByte p 12).getLsbD 1 = k.slot.isSome ∧
    (payloadByte p 12).extractLsb' 2 6 = 0 ∧
    payloadByte p 13 = (match k.cls with | .critical => 0 | .standard => 1 | .bulk => 2 | .unscrubbed => 3) ∧
    payloadHalf p 14 = (match k.slot with | some i => BitVec.ofNat 16 i.val | none => 0xFFFF) ∧
    p.extractLsb' 0 32 = 0

/-- LOOKUP returns the record of its key, or NOT_FOUND; NEXT returns the record with the smallest key that lies above the one
given and passes the filter, or NOT_FOUND; a flag or filter code outside its list is RANGE (R191); neither changes anything
(R40, R41). -/
def Obligations.LookupAndNextFindRecords : Prop :=
  ∀ (s : State) (e : Nat) (ch : ChanId) (line : BitVec 32), s.LinkReady → s.TableSound →
    (∀ r ∈ s.table, r.key = { channel := ch, line := line.toNat } →
      exec (.lookup e (BitVec.ofNat 8 ch.val) line) s = .next (s.withAnswer s e 0x10 .ok (recordReadout r))) ∧
    ((∀ r ∈ s.table, r.key ≠ { channel := ch, line := line.toNat }) →
      exec (.lookup e (BitVec.ofNat 8 ch.val) line) s = .next (s.withAnswer s e 0x10 .notFound 0)) ∧
    (∀ (filter : Byte) (f : Filter), filterArg filter = some f →
      (∀ r ∈ s.table, f.passes r.state = true →
        (Key.lt { channel := ch, line := line.toNat } r.key = true →
          (∀ q ∈ s.table, f.passes q.state = true → Key.lt { channel := ch, line := line.toNat } q.key = true →
            Key.lt q.key r.key = false) →
          exec (.next e 1 (BitVec.ofNat 8 ch.val) line filter) s =
            .next (s.withAnswer s e 0x11 .ok (recordReadout r))) ∧
        ((∀ q ∈ s.table, f.passes q.state = true → Key.lt q.key r.key = false) →
          ∀ b : Byte, exec (.next e 0 b line filter) s = .next (s.withAnswer s e 0x11 .ok (recordReadout r)))) ∧
      ((∀ q ∈ s.table, f.passes q.state = true → Key.lt { channel := ch, line := line.toNat } q.key = false) →
        exec (.next e 1 (BitVec.ofNat 8 ch.val) line filter) s = .next (s.withAnswer s e 0x11 .notFound 0)) ∧
      (∀ b : Byte, 4 ≤ b.toNat →
        exec (.next e 1 b line filter) s = .next (s.withAnswer s e 0x11 .notFound 0)) ∧
      ((∀ q ∈ s.table, f.passes q.state = false) →
        ∀ b : Byte, exec (.next e 0 b line filter) s = .next (s.withAnswer s e 0x11 .notFound 0))) ∧
    (filterArg 5 = some .any ∧ filterArg 0 = some (.only .watch) ∧ filterArg 1 = some (.only .hot) ∧
      filterArg 2 = some (.only .sparing) ∧ filterArg 3 = some (.only .spared) ∧ filterArg 4 = some (.only .retired)) ∧
    (∀ flag b filter : Byte, 2 ≤ flag.toNat ∨ 6 ≤ filter.toNat →
      exec (.next e flag b line filter) s = .next (s.withAnswer s e 0x11 .range 0))

/-- ADOPT checks RANGE, EXISTS, FULL and STATE in that order; when all pass it creates a record of R25's fields with the
state given and origin HOST, and a SPARED one takes its slot, which becomes ALLOCATED, so that a read in flight there is
marked and no other (R42, R141, R142). -/
def Obligations.AdoptCreatesRecord : Prop :=
  ∀ (s : State) (e : Nat) (ch : ChanId) (line : BitVec 32) (state : Byte) (slot : BitVec 16), s.LinkReady →
    ((s.chan ch).visible ≤ line.toNat ∨ state ∉ [(0 : Byte), 3, 4] ∨ (state = 3 ∧ 512 ≤ slot.toNat) →
      exec (.adopt e (BitVec.ofNat 8 ch.val) line state slot) s = .next (s.withAnswer s e 0x12 .range 0)) ∧
    (line.toNat < (s.chan ch).visible → state ∈ [(0 : Byte), 3, 4] → (state = 3 → slot.toNat < 512) →
      ((s.rec? ch line.toNat).isSome = true →
        exec (.adopt e (BitVec.ofNat 8 ch.val) line state slot) s = .next (s.withAnswer s e 0x12 .exists 0)) ∧
      (s.rec? ch line.toNat = none → 1024 ≤ s.table.length →
        exec (.adopt e (BitVec.ofNat 8 ch.val) line state slot) s = .next (s.withAnswer s e 0x12 .full 0)) ∧
      (s.rec? ch line.toNat = none → s.table.length < 1024 →
        ∀ r : Record, r = newRecord { channel := ch, line := line.toNat } .host →
        (state = 0 → exec (.adopt e (BitVec.ofNat 8 ch.val) line state slot) s =
          .next (State.withAnswer { s with table := insertRec s.table r } s e 0x12 .ok (recordReadout r))) ∧
        (state = 4 → exec (.adopt e (BitVec.ofNat 8 ch.val) line state slot) s =
          .next (State.withAnswer { s with table := insertRec s.table { r with state := .retired } } s e 0x12 .ok
            (recordReadout { r with state := .retired }))) ∧
        (state = 3 → ∀ i : SlotId, slot.toNat = i.val →
          ((s.chan ch).slots.get i ≠ .free →
            exec (.adopt e (BitVec.ofNat 8 ch.val) line state slot) s = .next (s.withAnswer s e 0x12 .state 0)) ∧
          ((s.chan ch).slots.get i = .free →
            ∃ t : State, exec (.adopt e (BitVec.ofNat 8 ch.val) line state slot) s = .next t ∧
              t = State.withAnswer { s with
                table := insertRec s.table { r with state := .spared, spareSlot := some i }, chans := t.chans } s e 0x12
                .ok (recordReadout { r with state := .spared, spareSlot := some i }) ∧
              (∀ c : ChanId, c ≠ ch → t.chan c = s.chan c) ∧
              t.chan ch = { s.chan ch with
                slots := (s.chan ch).slots.set i.val .allocated, exhausted := false
                flights := markMoved i (s.chan ch).flights }))))

/-- PIN sets pinned, UNPIN clears it and CLEAR_HOLD clears hold, in every state but RETIRED, which gives STATE, and only that
flag of that record changes; a hold that was set brings about a selection, made once the command has been taken (R43,
R46; the response comes first, log entry 10). -/
def Obligations.PinUnpinAndClearHold : Prop :=
  ∀ (s : State) (e : Nat) (ch : ChanId) (line : BitVec 32) (r : Record), s.LinkReady →
    s.rec? ch line.toNat = some r →
    (r.state = .retired →
      exec (.pin e (BitVec.ofNat 8 ch.val) line) s = .next (s.withAnswer s e 0x13 .state 0) ∧
      exec (.unpin e (BitVec.ofNat 8 ch.val) line) s = .next (s.withAnswer s e 0x14 .state 0) ∧
      exec (.clearHold e (BitVec.ofNat 8 ch.val) line) s = .next (s.withAnswer s e 0x17 .state 0)) ∧
    (r.state ≠ .retired →
      exec (.pin e (BitVec.ofNat 8 ch.val) line) s = .next (State.withAnswer
        (s.modRec ch line.toNat (fun x => { x with pinned := true })) s e 0x13 .ok
        (recordReadout { r with pinned := true })) ∧
      exec (.unpin e (BitVec.ofNat 8 ch.val) line) s = .next (State.withAnswer
        (s.modRec ch line.toNat (fun x => { x with pinned := false })) s e 0x14 .ok
        (recordReadout { r with pinned := false })) ∧
      (r.hold = false → exec (.clearHold e (BitVec.ofNat 8 ch.val) line) s = .next (State.withAnswer
        (s.modRec ch line.toNat (fun x => { x with hold := false })) s e 0x17 .ok
        (recordReadout { r with hold := false }))) ∧
      (r.hold = true → exec (.clearHold e (BitVec.ofNat 8 ch.val) line) s = .next ((State.withAnswer
        (s.modRec ch line.toNat (fun x => { x with hold := false })) s e 0x17 .ok
        (recordReadout { r with hold := false })).select ch)))

/-- RETIRE: on a RETIRED record nothing changes; a WATCH or HOT record becomes RETIRED with an empty poison set; a SPARED
record also gives its slot back, which becomes FREE, and a selection follows; the migration of a SPARING record is
cancelled, and then its spare slot, if it has one, becomes FREE (R34, R44, R142; the response comes first, log entry 10).
At each slot that becomes FREE the reads in flight are marked, and the write-back entries and held offers are dropped
(R93, R115, R142). Where entries leave and held offers join in one change, the count of R97 is 0 when none of the entries
stays, which is the model's choice (log entry 26). -/
def Obligations.RetireFreezesRecord : Prop :=
  ∀ (s : State) (e : Nat) (ch : ChanId) (line : BitVec 32) (r : Record), s.LinkReady → s.SparingSound →
    s.rec? ch line.toNat = some r →
    (r.state = .retired →
      exec (.retire e (BitVec.ofNat 8 ch.val) line) s = .next (s.withAnswer s e 0x15 .ok (recordReadout r))) ∧
    (r.state = .watch ∨ r.state = .hot →
      exec (.retire e (BitVec.ofNat 8 ch.val) line) s = .next (State.withAnswer
        (s.modRec ch line.toNat (fun x => { x with state := .retired, poison := 0 })) s e 0x15 .ok
        (recordReadout { r with state := .retired, poison := 0 }))) ∧
    (∀ i, r.state = .spared → r.spareSlot = some i →
      ∃ t : State, exec (.retire e (BitVec.ofNat 8 ch.val) line) s = .next (t.select ch) ∧
        t = State.withAnswer { (s.modRec ch line.toNat (fun x =>
          { x with state := .retired, poison := 0, spareSlot := none })) with chans := t.chans } s e 0x15 .ok
          (recordReadout { r with state := .retired, poison := 0, spareSlot := none }) ∧
        (∀ c : ChanId, c ≠ ch → t.chan c = s.chan c) ∧
        (s.chan ch).Drops (t.chan ch) (s.chan ch).demandCount (WbEntry.atSlot i) ∧
        t.chan ch = { s.chan ch with
          slots := (s.chan ch).slots.set i.val .free, exhausted := false
          flights := markMoved i (s.chan ch).flights, wbq := (t.chan ch).wbq, demandCount := (t.chan ch).demandCount
          patrol := { (s.chan ch).patrol with held := (t.chan ch).patrol.held } }) ∧
    (∀ m, r.state = .sparing → (s.chan ch).migration = some m →
      ∃ t : State, exec (.retire e (BitVec.ofNat 8 ch.val) line) s = .next (t.select ch) ∧
        t.rec? ch line.toNat = some { r with
          state := .retired, poison := 0, spareSlot := none, targetSlot := none, priorState := none, hold := true } ∧
        t = State.withAnswer { s with table := t.table, chans := t.chans } s e 0x15 .ok (t.readout ch line.toNat) ∧
        (∀ k : Key, k ≠ { channel := ch, line := line.toNat } → findRec t.table k = findRec s.table k) ∧
        (∀ c : ChanId, c ≠ ch → t.chan c = s.chan c) ∧
        (r.spareSlot = none → (s.chan ch).Drops (t.chan ch) (s.chan ch).demandCount (WbEntry.atSlot m.target)) ∧
        (∀ i, r.spareSlot = some i → ∃ d : Channel,
          (s.chan ch).Drops d (s.chan ch).demandCount (WbEntry.atSlot m.target) ∧
          d.Drops (t.chan ch) d.demandCount (WbEntry.atSlot i)) ∧
        t.chan ch = { s.chan ch with
          migration := none, exhausted := false
          slots := (match r.spareSlot with
            | some i => ((s.chan ch).slots.set m.target.val .free).set i.val .free
            | none => (s.chan ch).slots.set m.target.val .free)
          flights := (match r.spareSlot with
            | some i => markMoved i (markMoved m.target (markLate (s.chan ch).flights))
            | none => markMoved m.target (markLate (s.chan ch).flights))
          wbq := (t.chan ch).wbq, demandCount := (t.chan ch).demandCount
          patrol := { (s.chan ch).patrol with held := (t.chan ch).patrol.held } })

/-- RELEASE removes a WATCH, HOT or RETIRED record and returns its readout; in SPARING and SPARED it is STATE, and with no
record NOT_FOUND (R45). -/
def Obligations.ReleaseRemovesRecord : Prop :=
  ∀ (s : State) (e : Nat) (ch : ChanId) (line : BitVec 32), s.LinkReady →
    (s.rec? ch line.toNat = none →
      exec (.release e (BitVec.ofNat 8 ch.val) line) s = .next (s.withAnswer s e 0x16 .notFound 0)) ∧
    (∀ r, s.rec? ch line.toNat = some r →
      (r.state = .sparing ∨ r.state = .spared →
        exec (.release e (BitVec.ofNat 8 ch.val) line) s = .next (s.withAnswer s e 0x16 .state 0)) ∧
      (r.state = .watch ∨ r.state = .hot ∨ r.state = .retired →
        exec (.release e (BitVec.ofNat 8 ch.val) line) s = .next (State.withAnswer { s with
          table := s.table.filter (fun x => x.key != { channel := ch, line := line.toNat }) } s e 0x16 .ok
          (recordReadout r))))

/-! ### Sparing -/

/-- SPARE checks NOT_FOUND, STATE, BUSY and NO_SPARE in that order; when all pass the migration starts on the lowest FREE
slot with hold cleared, and the result is ACCEPTED; a read in flight at that slot is marked and no other (R29, R142, R149,
R150). -/
def Obligations.SpareStartsMigration : Prop :=
  ∀ (s : State) (e : Nat) (ch : ChanId) (line : BitVec 32), s.LinkReady →
    (s.rec? ch line.toNat = none →
      exec (.spare e (BitVec.ofNat 8 ch.val) line) s = .next (s.withAnswer s e 0x20 .notFound 0)) ∧
    (∀ r, s.rec? ch line.toNat = some r →
      (r.state = .sparing ∨ r.state = .retired →
        exec (.spare e (BitVec.ofNat 8 ch.val) line) s = .next (s.withAnswer s e 0x20 .state 0)) ∧
      (r.state = .watch ∨ r.state = .hot ∨ r.state = .spared →
        ((s.chan ch).migration.isSome = true →
          exec (.spare e (BitVec.ofNat 8 ch.val) line) s = .next (s.withAnswer s e 0x20 .busy 0)) ∧
        ((s.chan ch).migration = none →
          ((∀ i : SlotId, (s.chan ch).slots.get i ≠ .free) →
            exec (.spare e (BitVec.ofNat 8 ch.val) line) s = .next (s.withAnswer s e 0x20 .noSpare 0)) ∧
          (∀ (i : SlotId) (q : Record), (s.chan ch).slots.get i = .free →
            (∀ j : SlotId, j < i → (s.chan ch).slots.get j ≠ .free) →
            q = { r with
              state := .sparing, targetSlot := some i, hold := false
              priorState := some (if r.state = .spared then .spared else .hot) } →
            ∃ t : State, exec (.spare e (BitVec.ofNat 8 ch.val) line) s = .next t ∧
              t = State.withAnswer { s with
                table := s.table.map (fun x => if x.key = r.key then { x with
                  state := .sparing, targetSlot := some i, hold := false
                  priorState := some (if x.state = .spared then .spared else .hot) } else x)
                chans := t.chans } s e 0x20 .accepted (recordReadout q) ∧
              (∀ c : ChanId, c ≠ ch → t.chan c = s.chan c) ∧
              t.chan ch = { s.chan ch with
                slots := (s.chan ch).slots.set i.val .allocated, exhausted := false
                flights := markMoved i (s.chan ch).flights
                migration := some
                  { line := line.toNat, target := i, source := r.location, phase := .copyRead, inFlight := false
                    copyWritten := false, retry := 0, held := none, expected := 0 } }))))

/-- CANCEL returns a SPARING record to its prior state with hold set, frees the target slot and ends the migration; a
selection follows; a record in any other state is STATE (R32, R151; the response comes before the selection, log entry
10). The reads in flight at the target slot are marked and no others, the migration's own read outlives it (R163), and the
write-back entries and held offers at the slot are dropped (R93, R115, R142). Where entries leave and held offers join in
one change, the count of R97 is 0 when none of the entries stays, which is the model's choice (log entry 26). -/
def Obligations.CancelEndsMigration : Prop :=
  ∀ (s : State) (e : Nat) (ch : ChanId) (line : BitVec 32) (r : Record), s.LinkReady →
    s.rec? ch line.toNat = some r →
    (r.state ≠ .sparing →
      exec (.cancel e (BitVec.ofNat 8 ch.val) line) s = .next (s.withAnswer s e 0x21 .state 0)) ∧
    (∀ (m : Migration) (p : PriorState) (q : Record), r.state = .sparing → r.priorState = some p →
      (s.chan ch).migration = some m → m.line = line.toNat →
      q = { r with state := p.toState, targetSlot := none, priorState := none, hold := true } →
      ∃ t : State, exec (.cancel e (BitVec.ofNat 8 ch.val) line) s = .next (t.select ch) ∧
        t.rec? ch line.toNat = some q ∧
        t = State.withAnswer { s with table := t.table, chans := t.chans } s e 0x21 .ok (recordReadout q) ∧
        (∀ k : Key, k ≠ { channel := ch, line := line.toNat } → findRec t.table k = findRec s.table k) ∧
        (∀ c : ChanId, c ≠ ch → t.chan c = s.chan c) ∧
        (∀ w ∈ (t.chan ch).wbq, w.loc ≠ .slot m.target) ∧ (∀ w ∈ (t.chan ch).patrol.held, w.loc ≠ .slot m.target) ∧
        (s.chan ch).Drops (t.chan ch) (s.chan ch).demandCount (WbEntry.atSlot m.target) ∧
        t.chan ch = { s.chan ch with
          migration := none, slots := (s.chan ch).slots.set m.target.val .free, exhausted := false
          flights := markMoved m.target (markLate (s.chan ch).flights)
          wbq := (t.chan ch).wbq, demandCount := (t.chan ch).demandCount
          patrol := { (s.chan ch).patrol with held := (t.chan ch).patrol.held } })

/-- SPARE_QUERY returns the three counts and the lowest FREE slot; SPARE_SLOT returns a slot's state and, for an ALLOCATED
one, its owner and role; SPARE_RESTORE makes a DEFECTIVE slot FREE, clears the exhaustion flag and brings about a
selection, and is STATE otherwise; a slot above 511 is RANGE (R143, R144, R145). The reads in flight at the restored slot
are marked and no others, and its write-back entries and held offers are dropped (R93, R115, R142). That SPARE_RESTORE's
response shows the slot FREE, as it stands before that selection, is the model's reading (log entry 10). Where entries
leave and held offers join in one change, the count of R97 is 0 when none of the entries stays, which is the model's
choice (log entry 26). -/
def Obligations.SparePoolCommands : Prop :=
  ∀ (s : State) (e : Nat) (ch : ChanId), s.LinkReady → s.SparingSound →
    (∃ p, exec (.spareQuery e (BitVec.ofNat 8 ch.val)) s = .next (s.withAnswer s e 0x22 .ok p) ∧
      payloadHalf p 0 = BitVec.ofNat 16 ((s.chan ch).slots.toList.countP (· == .free)) ∧
      payloadHalf p 2 = BitVec.ofNat 16 ((s.chan ch).slots.toList.countP (· == .allocated)) ∧
      payloadHalf p 4 = BitVec.ofNat 16 ((s.chan ch).slots.toList.countP (· == .defective)) ∧
      (∀ i : SlotId, (s.chan ch).slots.get i = .free → (∀ j : SlotId, j < i → (s.chan ch).slots.get j ≠ .free) →
        payloadHalf p 6 = BitVec.ofNat 16 i.val) ∧
      ((∀ i : SlotId, (s.chan ch).slots.get i ≠ .free) → payloadHalf p 6 = 0xFFFF)) ∧
    (∀ i : SlotId,
      (∀ r ∈ s.table, r.key.channel = ch → r.spareSlot = some i →
        exec (.spareSlot e (BitVec.ofNat 8 ch.val) (BitVec.ofNat 16 i.val)) s = .next (s.withAnswer s e 0x23 .ok
          (1#8 ++ (0#8 ++ (BitVec.ofNat 8 ch.val ++ (BitVec.ofNat 32 r.key.line ++ 0#104)))))) ∧
      (∀ r ∈ s.table, r.key.channel = ch → r.targetSlot = some i →
        exec (.spareSlot e (BitVec.ofNat 8 ch.val) (BitVec.ofNat 16 i.val)) s = .next (s.withAnswer s e 0x23 .ok
          (1#8 ++ (1#8 ++ (BitVec.ofNat 8 ch.val ++ (BitVec.ofNat 32 r.key.line ++ 0#104)))))) ∧
      ((s.chan ch).slots.get i ≠ .allocated →
        exec (.spareSlot e (BitVec.ofNat 8 ch.val) (BitVec.ofNat 16 i.val)) s = .next (s.withAnswer s e 0x23 .ok
          (((s.chan ch).slots.get i).byte ++ (0xFF#8 ++ (0xFF#8 ++ 0#136))))) ∧
      ((s.chan ch).slots.get i ≠ .defective →
        exec (.spareRestore e (BitVec.ofNat 8 ch.val) (BitVec.ofNat 16 i.val)) s =
          .next (s.withAnswer s e 0x24 .state 0)) ∧
      ((s.chan ch).slots.get i = .defective →
        ∃ t : State, exec (.spareRestore e (BitVec.ofNat 8 ch.val) (BitVec.ofNat 16 i.val)) s = .next (t.select ch) ∧
          t = State.withAnswer { s with chans := t.chans } s e 0x24 .ok 0 ∧
          (∀ c : ChanId, c ≠ ch → t.chan c = s.chan c) ∧
          (s.chan ch).Drops (t.chan ch) (s.chan ch).demandCount (WbEntry.atSlot i) ∧
          t.chan ch = { s.chan ch with
            slots := (s.chan ch).slots.set i.val .free, exhausted := false
            flights := markMoved i (s.chan ch).flights, wbq := (t.chan ch).wbq, demandCount := (t.chan ch).demandCount
            patrol := { (s.chan ch).patrol with held := (t.chan ch).patrol.held } })) ∧
    (∀ v : BitVec 16, 512 ≤ v.toNat →
      exec (.spareSlot e (BitVec.ofNat 8 ch.val) v) s = .next (s.withAnswer s e 0x23 .range 0) ∧
      exec (.spareRestore e (BitVec.ofNat 8 ch.val) v) s = .next (s.withAnswer s e 0x24 .range 0))

/-- A selection of an idle Migration Unit takes, among the channel's records that meet the four conditions, the one with the
highest score and of those the lowest line, on the lowest FREE slot, keeping hold, and nothing else of the channel changes but
the mark on the reads in flight at that slot (R142, R149); without a FREE slot it raises SPARE_EXHAUSTED once until the flag
is cleared; a busy unit selects nothing (R38, R147, R148). -/
def Obligations.SelectionTakesBestCandidate : Prop :=
  ∀ (s : State) (ch : ChanId), s.TableSound →
    ((s.chan ch).migration.isSome = true → s.select ch = s) ∧
    ((s.chan ch).migration = none →
      ((∀ r ∈ s.table, r.key.channel = ch → r.spareWanted = true → r.hold = false →
          (s.policy (s.classOf ch r.key.line)).autoSpare = true → r.state = .retired) → s.select ch = s) ∧
      (∀ r ∈ s.table, r.key.channel = ch → r.spareWanted = true → r.hold = false →
        (s.policy (s.classOf ch r.key.line)).autoSpare = true →
        (r.state = .watch ∨ r.state = .hot ∨ r.state = .spared) →
        (∀ q ∈ s.table, q ≠ r → s.isCandidate ch q = true →
          q.score < r.score ∨ (q.score = r.score ∧ r.key.line < q.key.line)) →
        ((∀ i : SlotId, (s.chan ch).slots.get i ≠ .free) →
          s.select ch = if (s.chan ch).exhausted then s
            else (s.raise .spareExhausted).modChan ch (fun c => { c with exhausted := true })) ∧
        (∀ i : SlotId, (s.chan ch).slots.get i = .free → (∀ j : SlotId, j < i → (s.chan ch).slots.get j ≠ .free) →
          (s.select ch).rec? ch r.key.line = some { r with
            state := .sparing, targetSlot := some i
            priorState := some (if r.state = .spared then .spared else .hot) } ∧
          (∀ k : Key, k ≠ { channel := ch, line := r.key.line } → findRec (s.select ch).table k = findRec s.table k) ∧
          (s.select ch).chan ch = { s.chan ch with
            slots := (s.chan ch).slots.set i.val .allocated, exhausted := false
            flights := markMoved i (s.chan ch).flights
            migration := some
              { line := r.key.line, target := i, source := r.location, phase := .copyRead, inFlight := false
                copyWritten := false, retry := 0, held := none, expected := 0 } } ∧
          s.OnlyChannel (s.select ch) ch ∧
          (s.select ch).causes = s.causes)))

/-! ### The Region Map -/

/-- REGION_SET replaces the window's five fields, `last` brought below the largest visible line count of the named channels;
first above last, or first at or beyond that count, is RANGE; REGION_GET returns the window as stored; a window index, flag,
channel set or class code outside its list is RANGE (R68, R69, R191). -/
def Obligations.RegionCommands : Prop :=
  ∀ (s : State) (e : Nat) (i : Fin 8), s.LinkReady →
    (∀ (en : Bool) (cs : BitVec 4) (first last : BitVec 32) (cls : MemClass) (vis : Nat),
      (∀ ch : ChanId, cs.getLsbD ch.val = true → (s.chan ch).visible ≤ vis) →
      (cs ≠ 0 → ∃ ch : ChanId, cs.getLsbD ch.val = true ∧ (s.chan ch).visible = vis) →
      (last.toNat < first.toNat ∨ (cs ≠ 0 ∧ vis ≤ first.toNat) →
        exec (.regionSet e (BitVec.ofNat 8 i.val) (yesNoByte en) (cs.setWidth 8) first last cls.byte) s =
          .next (s.withAnswer s e 0x30 .range 0)) ∧
      (first.toNat ≤ last.toNat → (cs = 0 ∨ first.toNat < vis) →
        ∀ (n : Nat) (w : Window), n = (if cs = 0 then last.toNat else min last.toNat (vis - 1)) →
        w = { enabled := en, channels := cs, first := first.toNat, last := n, cls := cls } →
        exec (.regionSet e (BitVec.ofNat 8 i.val) (yesNoByte en) (cs.setWidth 8) first last cls.byte) s =
          .next (State.withAnswer { s with windows := s.windows.set i.val w } s e 0x30
            (if n = last.toNat then .ok else .clamped) (windowReadout i w)))) ∧
    (∀ (index enabled chans cls : Byte) (first last : BitVec 32),
      8 ≤ index.toNat ∨ 2 ≤ enabled.toNat ∨ 16 ≤ chans.toNat ∨ 4 ≤ cls.toNat →
      exec (.regionSet e index enabled chans first last cls) s = .next (s.withAnswer s e 0x30 .range 0)) ∧
    (∀ index : Byte, 8 ≤ index.toNat → exec (.regionGet e index) s = .next (s.withAnswer s e 0x31 .range 0)) ∧
    exec (.regionGet e (BitVec.ofNat 8 i.val)) s =
      .next (s.withAnswer s e 0x31 .ok (windowReadout i (s.windows.get i))) ∧
    ∀ w : Window, w.first < 2 ^ 32 → w.last < 2 ^ 32 →
      payloadByte (windowReadout i w) 0 = BitVec.ofNat 8 i.val ∧
      payloadByte (windowReadout i w) 1 = yesNoByte w.enabled ∧
      payloadByte (windowReadout i w) 2 = w.channels.setWidth 8 ∧
      (payloadQuad (windowReadout i w) 3).toNat = w.first ∧ (payloadQuad (windowReadout i w) 7).toNat = w.last ∧
      payloadByte (windowReadout i w) 11 = w.cls.byte

/-- A window covers a key when it is enabled, names the key's channel and has the line within its first and last line (R61).
The class of a key is that of the lowest-numbered window that covers it, STANDARD when none does (R62); CLASS_SET stores
the four changeable items with the thresholds brought into range in R70's order, and CLASS_GET returns them with the two
fixed items (R63, R70); a class or flag code outside its list is RANGE (R191). -/
def Obligations.ClassLookupAndCommands : Prop :=
  (∀ (w : Window) (ch : ChanId) (line : Nat), w.covers ch line = true ↔
    w.enabled = true ∧ w.channels.getLsbD ch.val = true ∧ w.first ≤ line ∧ line ≤ w.last) ∧
  (∀ (s : State) (ch : ChanId) (line : Nat),
    (∀ i : Fin 8, (s.windows.get i).covers ch line = true →
      (∀ j : Fin 8, j < i → (s.windows.get j).covers ch line = false) →
      s.classOf ch line = (s.windows.get i).cls) ∧
    ((∀ i : Fin 8, (s.windows.get i).covers ch line = false) → s.classOf ch line = .standard)) ∧
  ∀ (s : State) (e : Nat) (c : MemClass), s.LinkReady →
    (∀ (tHot tSpare : BitVec 16) (a w : Bool) (h k : Nat), h = min 1023 (max 1 tHot.toNat) →
      k = min 1023 (max h tSpare.toNat) →
      exec (.classSet e c.byte tHot tSpare (yesNoByte a) (yesNoByte w)) s = .next (State.withAnswer
        { s with policies := s.policies.set c.code.val { tHot := h, tSpare := k, autoSpare := a, demandWb := w } } s e
        0x32 (if h = tHot.toNat ∧ k = tSpare.toNat then .ok else .clamped)
        (c.byte ++ (BitVec.ofNat 16 h ++ (BitVec.ofNat 16 k ++ (yesNoByte a ++ (yesNoByte w ++
          (yesNoByte (decide (c ≠ .unscrubbed)) ++ (yesNoByte (decide (c = .critical)) ++ 0#88))))))))) ∧
    (∀ (cls a w : Byte) (tHot tSpare : BitVec 16), 4 ≤ cls.toNat ∨ 2 ≤ a.toNat ∨ 2 ≤ w.toNat →
      exec (.classSet e cls tHot tSpare a w) s = .next (s.withAnswer s e 0x32 .range 0)) ∧
    (∀ cls : Byte, 4 ≤ cls.toNat → exec (.classGet e cls) s = .next (s.withAnswer s e 0x33 .range 0)) ∧
    exec (.classGet e c.byte) s = .next (s.withAnswer s e 0x33 .ok
      (c.byte ++ (BitVec.ofNat 16 (s.policy c).tHot ++ (BitVec.ofNat 16 (s.policy c).tSpare ++
        (yesNoByte (s.policy c).autoSpare ++ (yesNoByte (s.policy c).demandWb ++
          (yesNoByte (decide (c ≠ .unscrubbed)) ++ (yesNoByte (decide (c = .critical)) ++ 0#88))))))))

/-! ### Channels and patrol commands -/

/-- CHANNEL_FILL, CHANNEL_ONLINE and CHANNEL_OFFLINE with their checks in order and their effects (R18, R74, R76, R77);
any held offers are offered to the queue that CHANNEL_FILL has emptied (R114). An ONLINE channel that CHANNEL_OFFLINE takes
offline owes no poison write; that the command is BUSY while one is owed is read from that sentence of R77 (log entry 18).
That the count of R97 is then 0 also where
held offers join the emptied queue is the model's choice (log entry 26). -/
def Obligations.ChannelStateCommands : Prop :=
  ∀ (s : State) (e : Nat) (ch : ChanId), s.LinkReady →
    ((s.chan ch).state ≠ .disabled →
      exec (.channelFill e (BitVec.ofNat 8 ch.val)) s = .next (s.withAnswer s e 0x40 .state 0)) ∧
    ((s.chan ch).state = .disabled → (s.chan ch).physLines = 0 →
      exec (.channelFill e (BitVec.ofNat 8 ch.val)) s = .next (s.withAnswer s e 0x40 .range 0)) ∧
    ((s.chan ch).state = .disabled → (s.chan ch).physLines ≠ 0 →
      (s.chan ch).patrol.held.Pairwise (fun a b => a.same b = false) →
      exec (.channelFill e (BitVec.ofNat 8 ch.val)) s = .next (State.withAnswer { (s.modChan ch (fun c =>
        { c with
          state := .initializing, fillProgress := 0, wbq := c.patrol.held.take 4, demandCount := 0
          patrol := { c.patrol with held := c.patrol.held.drop 4 } })) with
        table := s.table.map (fun r => if r.key.channel = ch then { r with poison := 0 } else r) } s e 0x40 .accepted
        (1#8 ++ 0#152))) ∧
    ((s.chan ch).physLines = 0 →
      exec (.channelOnline e (BitVec.ofNat 8 ch.val)) s = .next (s.withAnswer s e 0x41 .range 0)) ∧
    ((s.chan ch).physLines ≠ 0 → (s.chan ch).state ≠ .disabled →
      exec (.channelOnline e (BitVec.ofNat 8 ch.val)) s = .next (s.withAnswer s e 0x41 .state 0)) ∧
    ((s.chan ch).physLines ≠ 0 → (s.chan ch).state = .disabled →
      exec (.channelOnline e (BitVec.ofNat 8 ch.val)) s = .next (State.withAnswer
        (s.modChan ch (fun c => { c with state := .online })) s e 0x41 .ok
        (2#8 ++ (BitVec.ofNat 32 (s.chan ch).fillProgress ++ 0#120)))) ∧
    ((s.chan ch).state ≠ .online ∨
      ((s.chan ch).queue = [] ∧ ((s.chan ch).patrol.state = .idle ∨ (s.chan ch).patrol.state = .done) ∧
        (s.chan ch).migration = none ∧ (s.chan ch).owed = [] ∧
        ∀ f ∈ (s.chan ch).flights, f.kind.ofMigration = false) →
      exec (.channelOffline e (BitVec.ofNat 8 ch.val)) s = .next (State.withAnswer
        (s.modChan ch (fun c => { c with state := .disabled })) s e 0x42 .ok
        (0#8 ++ (BitVec.ofNat 32 (s.chan ch).fillProgress ++ 0#120)))) ∧
    ((s.chan ch).state = .online →
      ((s.chan ch).queue ≠ [] ∨ (s.chan ch).patrol.state = .running ∨ (s.chan ch).patrol.state = .halting ∨
        (s.chan ch).migration.isSome = true ∨ (s.chan ch).owed ≠ [] ∨
        ∃ f ∈ (s.chan ch).flights, f.kind.ofMigration = true) →
      exec (.channelOffline e (BitVec.ofNat 8 ch.val)) s = .next (s.withAnswer s e 0x42 .busy 0))

/-- PATROL_START checks NOT_READY, BUSY and RANGE in that order, then the engine runs in the given mode and stands at the
first patrolled line from its start line or position, or has come to the pass end where there is none (R102, R105);
PATROL_HALT takes a running engine to IDLE, or to HALTING
while its read is unfinished, and changes nothing in the other states (R103). A mode or flag code outside its list is RANGE
(R191). -/
def Obligations.PatrolStartAndHalt : Prop :=
  ∀ (s : State) (e : Nat) (ch : ChanId), s.LinkReady →
    (∀ (mode : PatrolMode) (given : Bool) (start : BitVec 32) (from_ : Nat),
      from_ = (if given then start.toNat else (s.chan ch).patrol.position) →
      ((s.chan ch).state ≠ .online →
        exec (.patrolStart e (BitVec.ofNat 8 ch.val) mode.byte (yesNoByte given) start) s =
          .next (s.withAnswer s e 0x43 .notReady 0)) ∧
      ((s.chan ch).state = .online → (s.chan ch).patrol.state = .running ∨ (s.chan ch).patrol.state = .halting →
        exec (.patrolStart e (BitVec.ofNat 8 ch.val) mode.byte (yesNoByte given) start) s =
          .next (s.withAnswer s e 0x43 .busy 0)) ∧
      ((s.chan ch).state = .online → (s.chan ch).patrol.state = .idle ∨ (s.chan ch).patrol.state = .done →
        (given = true → (s.chan ch).visible ≤ start.toNat →
          exec (.patrolStart e (BitVec.ofNat 8 ch.val) mode.byte (yesNoByte given) start) s =
            .next (s.withAnswer s e 0x43 .range 0)) ∧
        (∀ l : Nat, from_ ≤ l → l < (s.chan ch).visible → s.classOf ch l ≠ .unscrubbed →
          (∀ k : Nat, from_ ≤ k → k < l → s.classOf ch k = .unscrubbed) →
          exec (.patrolStart e (BitVec.ofNat 8 ch.val) mode.byte (yesNoByte given) start) s =
            .next (State.withAnswer (s.modChan ch (fun c => { c with
              patrol := { c.patrol with state := .running, mode := mode, position := l, startWait := false } })) s e
              0x43 .accepted (1#8 ++ (BitVec.ofNat 32 l ++ 0#120)))) ∧
        (∀ u : State, (given = true → start.toNat < (s.chan ch).visible) →
          (∀ k : Nat, from_ ≤ k → k < (s.chan ch).visible → s.classOf ch k = .unscrubbed) →
          u = (s.modChan ch (fun c => { c with
            patrol := { c.patrol with state := .running, mode := mode, position := from_, startWait := false } })).endPass
            ch →
          exec (.patrolStart e (BitVec.ofNat 8 ch.val) mode.byte (yesNoByte given) start) s =
            .next (u.withAnswer s e 0x43 .accepted (((u.chan ch).patrol.state.code.setWidth 8 : Byte) ++
              (BitVec.ofNat 32 (u.chan ch).patrol.position ++ 0#120)))))) ∧
    (∀ (b mode flag : Byte) (start : BitVec 32), 4 ≤ b.toNat ∨ 2 ≤ mode.toNat ∨ 2 ≤ flag.toNat →
      exec (.patrolStart e b mode flag start) s = .next (s.withAnswer s e 0x43 .range 0)) ∧
    exec (.patrolHalt e (BitVec.ofNat 8 ch.val)) s = .next (State.withAnswer (s.modChan ch (fun c => { c with
      patrol := { c.patrol with
        state := if c.patrol.state = .running then (if c.patrol.current.isSome then .halting else .idle)
          else c.patrol.state
        startWait := if c.patrol.state = .running ∧ c.patrol.current = none then false
          else c.patrol.startWait } })) s e 0x44 .ok
      ((if (s.chan ch).patrol.state = .running then (if (s.chan ch).patrol.current.isSome then 2#8 else 0#8)
        else (s.chan ch).patrol.state.code.setWidth 8) ++
        (BitVec.ofNat 32 (s.chan ch).patrol.position ++ 0#120)))

/-! ### Phases and alerts -/

/-- SET_PHASE by the state it finds: naming the active phase leaves none pending, naming another makes it pending; an unknown
phase is RANGE (R132). PROFILE_SET replaces both items, ops above 15 stored as 15 with CLAMPED, and PROFILE_GET returns
them (R133). -/
def Obligations.PhaseCommands : Prop :=
  ∀ (s : State) (e : Nat), s.LinkReady →
    (∀ p : Phase, exec (.setPhase e p.byte) s = .next (State.withAnswer
      { s with cadence := { s.cadence with
        pendingPhase := if p = s.cadence.activePhase then none else some p } } s e 0x50 .ok
      (s.cadence.activePhase.byte ++ ((if p = s.cadence.activePhase then 0xFF#8 else p.byte) ++ 0#144)))) ∧
    (∀ (p : Phase) (mask : BitVec 32) (ops : Byte), exec (.profileSet e p.byte mask ops) s = .next (State.withAnswer
      { s with profiles := s.profiles.set p.code.val { mask := mask, ops := min 15 ops.toNat } } s e 0x51
      (if ops.toNat ≤ 15 then .ok else .clamped)
      (p.byte ++ (mask ++ (BitVec.ofNat 8 (min 15 ops.toNat) ++ 0#112))))) ∧
    (∀ p : Phase, exec (.profileGet e p.byte) s = .next (s.withAnswer s e 0x52 .ok
      (p.byte ++ ((s.profile p).mask ++ (BitVec.ofNat 8 (s.profile p).ops ++ 0#112))))) ∧
    (∀ (b ops : Byte) (mask : BitVec 32), 4 ≤ b.toNat →
      exec (.setPhase e b) s = .next (s.withAnswer s e 0x50 .range 0) ∧
      exec (.profileSet e b mask ops) s = .next (s.withAnswer s e 0x51 .range 0) ∧
      exec (.profileGet e b) s = .next (s.withAnswer s e 0x52 .range 0))

/-- CAPTURE_READ and COUNTS_READ return what stands and change nothing; CAPTURE_CLEAR and COUNTS_CLEAR return it and clear
it; ALERT_READ returns the causes, the mask and the line; ALERT_ACK clears the causes it names and returns the set before and
after, and a cause outside the twelve is RANGE (R170, R171, R173, R178, R179). -/
def Obligations.CaptureAndAlertCommands : Prop :=
  ∀ (s : State) (e : Nat), s.LinkReady →
    (∀ ch : ChanId,
      exec (.captureRead e (BitVec.ofNat 8 ch.val)) s =
        .next (s.withAnswer s e 0x60 .ok (captureReadout ch (s.chan ch).capture)) ∧
      exec (.captureClear e (BitVec.ofNat 8 ch.val)) s =
        .next (State.withAnswer (s.modChan ch (fun c => { c with capture := none })) s e 0x61 .ok
          (captureReadout ch (s.chan ch).capture)) ∧
      exec (.countsRead e (BitVec.ofNat 8 ch.val)) s = .next (s.withAnswer s e 0x62 .ok
        (BitVec.ofNat 16 (s.chan ch).ceCount ++ (BitVec.ofNat 16 (s.chan ch).ueCount ++ 0#128))) ∧
      exec (.countsClear e (BitVec.ofNat 8 ch.val)) s =
        .next (State.withAnswer (s.modChan ch (fun c => { c with ceCount := 0, ueCount := 0 })) s e 0x63 .ok
          (BitVec.ofNat 16 (s.chan ch).ceCount ++ (BitVec.ofNat 16 (s.chan ch).ueCount ++ 0#128)))) ∧
    exec (.alertRead e) s = .next (s.withAnswer s e 0x64 .ok
      (s.causes.setWidth 16 ++ (s.settings.alertMask.setWidth 16 ++ (yesNoByte s.alertLine ++ 0#120)))) ∧
    (s.alertLine = true ↔ ∃ c : Cause, hasCause s.causes c = true ∧ hasCause s.settings.alertMask c = false) ∧
    (∀ causes : BitVec 16, causes.toNat < 4096 →
      exec (.alertAck e causes) s = .next (State.withAnswer
        { s with causes := s.causes &&& ~~~(causes.setWidth 12) } s e 0x65 .ok
        (s.causes.setWidth 16 ++ ((s.causes &&& ~~~(causes.setWidth 12)).setWidth 16 ++ 0#128)))) ∧
    (∀ causes : BitVec 16, 4096 ≤ causes.toNat →
      exec (.alertAck e causes) s = .next (s.withAnswer s e 0x65 .range 0))

/-- An event handed to Capture and Alert adds 1 to its count, up to 65,535; the capture record takes it when it is empty, or
when it is a UE and the record holds a CE, and keeps what it holds otherwise; a UE raises UE_CRITICAL or UE by its class, a
CE raises nothing (R169, R172, R174). -/
def Obligations.CaptureTakesFirstSignificantEvent : Prop :=
  ∀ (s : State) (ch : ChanId) (ev : Capture),
    s.captureOne ch ev = { s with
      chans := (s.captureOne ch ev).chans
      causes := if ev.outcome = .ce then s.causes
        else s.causes ||| (if ev.cls = .critical then Cause.ueCritical.single else Cause.ue.single) } ∧
    (∀ c : ChanId, c ≠ ch → (s.captureOne ch ev).chan c = s.chan c) ∧
    (s.captureOne ch ev).chan ch = { s.chan ch with
      capture := (match (s.chan ch).capture with
        | none => some ev
        | some k => if k.outcome = .ce ∧ ev.outcome = .ue then some ev else some k)
      ceCount := if ev.outcome = .ce then min 65535 ((s.chan ch).ceCount + 1) else (s.chan ch).ceCount
      ueCount := if ev.outcome = .ce then (s.chan ch).ueCount else min 65535 ((s.chan ch).ueCount + 1) }

/-- What one event does to a record (R23, R49 to R52): a repeat or a new CE, a UE, a POISON outcome, and the thresholds of
the class after a CE or UE; a RETIRED record and a CLEAN outcome change nothing. What a delivery does to the table (R22, R25
to R27): its events are applied in codeword order to the line's record, or to a new WATCH record of the delivery's origin,
for which a full table evicts the record that R26 names; with none to evict nothing is recorded and TABLE_FULL is raised;
a notice (R52) brings about a selection; a delivery without events changes nothing. -/
def Obligations.EventsScoreRecords : Prop :=
  (∀ (r : Record) (w : Settings) (p : Policy) (i : CwIndex) (q : BitPos) (v : Verdict),
    (r.state = .retired → (r.applyEvent w p i v).1 = r) ∧
    (r.applyEvent w p i .clean).1 = r ∧
    (r.state ≠ .retired →
      (r.applyEvent w p i .poison).1 = { r with poison := r.poison ||| cwBit i } ∧
      (∀ n : Nat, n = min 1023 (r.score + (if r.lastBit = some q then w.wRepeat else w.wCe)) →
        (r.applyEvent w p i (.corrected q)).1 = { r with
          score := n
          lastBit := some q
          rep := if r.lastBit = some q then min 255 (r.rep + 1) else 0
          age := 0
          state := if r.state = .watch ∧ p.tHot ≤ n then .hot else r.state
          spareWanted := r.spareWanted || decide (p.tSpare ≤ n) }) ∧
      (r.applyEvent w p i .uncorrectable).1 = { r with
        score := 1023
        age := 0
        state := if r.state = .watch ∧ p.tHot ≤ 1023 then .hot else r.state
        spareWanted := r.spareWanted || decide (p.tSpare ≤ 1023) })) ∧
  ∀ (s : State) (ch : ChanId) (n : Nat) (src : ReadSource) (reps : Vector Report 8) (o : Origin) (p : Policy),
    o = (match src with
      | .demandRead | .demandMerge => .demand
      | .patrol | .focus => .patrol
      | .migration => .migration) → p = s.policy (s.classOf ch n) →
    ((∀ i : CwIndex, (reps.get i).verdict = .clean) → s.deliver ch n src reps = s) ∧
    ((∃ i : CwIndex, (reps.get i).verdict ≠ .clean) →
      (∀ (r q : Record) (l : List Record), q = r.afterEvents s.settings p reps → s.TableTakes ch n o r q l →
        (r.NoticeGiven q p → s.deliver ch n src reps = ({ s with table := l } : State).select ch) ∧
        (¬ r.NoticeGiven q p → s.deliver ch n src reps = { s with table := l })) ∧
      (s.rec? ch n = none → 1024 ≤ s.table.length →
        (∀ v ∈ s.table, v.state = .watch → v.pinned = false → v.poison ≠ 0) →
        s.deliver ch n src reps = { s with causes := s.causes ||| Cause.tableFull.single }))

/-! ### The demand path -/

/-- A request without a credit is dropped and raises PROTOCOL; one with a credit joins the tail, marked NOT_READY on a channel
that is not ONLINE and ADDRESS beyond the visible lines; while RESET is held it is discarded (R78, R79, R202). -/
def Obligations.RequestsJoinOrAreDropped : Prop :=
  ∀ (s : State) (ch : ChanId) (req : Request),
    (s.resetAsserted = true → exec (.requestArrival ch req) s = .next s) ∧
    (s.resetAsserted = false → (s.chan ch).credits = 0 →
      exec (.requestArrival ch req) s = .next { s with causes := s.causes ||| Cause.protocol.single }) ∧
    (s.resetAsserted = false → 1 ≤ (s.chan ch).credits →
      exec (.requestArrival ch req) s = .next (s.modChan ch (fun c => { c with
        credits := c.credits - 1
        nextSeq := c.nextSeq + 1
        queue := c.queue ++ [
          { seq := c.nextSeq
            req := req
            stage := if c.state ≠ .online then .refused .notReady
              else if c.visible ≤ req.line then .refused .address else .waiting }] })))

/-- The response at the head of the queue leaves, frees its place and returns a credit, once its request's work is done: at
once for a refused request and a write with an empty mask, at the issue of a write, and at the decode of a read whose poison
write is no longer owed; until then it keeps its place, and so holds back those behind it (R80; RESPONSE_DEPARTURE is then
an event that cannot take place, log entry 4). -/
def Obligations.ResponsesLeaveInOrder : Prop :=
  (∀ (s : State) (ch : ChanId), (s.chan ch).queue = [] → exec (.responseDeparture ch) s = .next s) ∧
  (∀ (s : State) (ch : ChanId) (q : QEntry) (rest : List QEntry), (s.chan ch).queue = q :: rest →
    ((q.stage = .waiting ∧ (q.req.kind = .read ∨ ∃ d m, m ≠ 0 ∧ q.req.kind = .write d m)) ∨ q.stage = .readIssued ∨
      (∃ p, q.stage = .mergeIssued p) ∨ (∃ p plan o, q.stage = .mergeDecoded p plan o) ∨
      (∃ o d m, q.stage = .readDone o d m ∧ ∃ w ∈ (s.chan ch).owed, w.owner = .demand q.seq)) →
    exec (.responseDeparture ch) s = .next s) ∧
  ∀ (s : State) (ch : ChanId) (q : QEntry) (rest : List QEntry) (resp : DemandResponse),
    (s.chan ch).queue = q :: rest →
    ((∃ reason, q.stage = .refused reason ∧ resp = .refused q.req.tag reason) ∨
      (∃ d, q.stage = .waiting ∧ q.req.kind = .write d 0 ∧ resp = .writeDone q.req.tag .done) ∨
      (∃ o, q.stage = .written o ∧ resp = .writeDone q.req.tag o) ∨
      (∃ o d m, q.stage = .readDone o d m ∧ (∀ w ∈ (s.chan ch).owed, w.owner ≠ .demand q.seq) ∧
        resp = .readData q.req.tag o d m)) →
    exec (.responseDeparture ch) s = .next (s.modChan ch (fun c =>
      { c with queue := rest, credits := c.credits + 1, response := some resp }))

/-- The order of the Channel Arbiter (R75, R84, R87, R96, R97), and what makes each kind of operation eligible: the head of the
demand queue is its first request that has not left it (R80, R81); a write at the head waits while a demand or merge read of
a location it would reach is in flight or a demand read owes a poison write there (R81), and makes a merge read first when
its mask covers a codeword in part (R85, R87); the write-back is the oldest entry with no read of its location in flight
(R94); a copy or verify read needs a budget of 1, the copy write none (R96); a patrol step needs a RUNNING engine with no
current read and no pass-start wait, and a budget of 1 (R106). When nothing is eligible nothing is issued (R96). -/
def Obligations.ArbiterOrder : Prop :=
  ∀ (s : State) (ch : ChanId),
    (∀ q : QEntry, (s.chan ch).head = some q ↔ ∃ before after : List QEntry,
      (s.chan ch).queue = before ++ q :: after ∧ ¬ q.HasLeft ∧ ∀ x ∈ before, x.HasLeft) ∧
    ((s.chan ch).head = none ↔ ∀ x ∈ (s.chan ch).queue, x.HasLeft) ∧
    ((s.chan ch).head = none → s.demandOp ch = none) ∧
    (∀ q : QEntry, (s.chan ch).head = some q →
      (q.stage ≠ .waiting → s.demandOp ch = none) ∧
      (q.stage = .waiting → q.req.kind = .read → s.demandOp ch = some .demandRead) ∧
      (∀ (data : LineData) (mask : BitVec 64) (locs : List Loc), q.stage = .waiting → q.req.kind = .write data mask →
        locs = (s.probe ch q.req.line).loc :: ((s.probe ch q.req.line).second.toList.map Loc.slot) →
        ((s.chan ch).HoldsBack locs → s.demandOp ch = none) ∧
        (¬ (s.chan ch).HoldsBack locs →
          ((∃ i : CwIndex, maskOf mask i ≠ 0 ∧ maskOf mask i ≠ 0xFF) → s.demandOp ch = some .mergeRead) ∧
          ((∀ i : CwIndex, maskOf mask i = 0 ∨ maskOf mask i = 0xFF) → s.demandOp ch = some .demandWrite)))) ∧
    (∀ w : WbEntry, (s.chan ch).wbNext = some w ↔ ∃ before after : List WbEntry,
      (s.chan ch).wbq = before ++ w :: after ∧ (∀ f ∈ (s.chan ch).flights, f.loc ≠ w.loc) ∧
        ∀ x ∈ before, ∃ f ∈ (s.chan ch).flights, f.loc = x.loc) ∧
    ((s.chan ch).wbNext = none ↔ ∀ x ∈ (s.chan ch).wbq, ∃ f ∈ (s.chan ch).flights, f.loc = x.loc) ∧
    ((s.chan ch).migration = none → (s.chan ch).migrationOp = none) ∧
    (∀ m : Migration, (s.chan ch).migration = some m → (s.chan ch).migrationOp = (match m.phase with
      | .copyRead => if m.inFlight = false ∧ 1 ≤ (s.chan ch).budget then some .copyRead else none
      | .copyWrite => some .copyWrite
      | .verifyRead => if m.inFlight = false ∧ 1 ≤ (s.chan ch).budget then some .verifyRead else none)) ∧
    ((s.chan ch).patrolReady = true ↔ (s.chan ch).patrol.state = .running ∧ (s.chan ch).patrol.current = none ∧
      (s.chan ch).patrol.startWait = false ∧ 1 ≤ (s.chan ch).budget) ∧
    ((s.chan ch).state = .initializing →
      s.nextOp ch = if (s.chan ch).fillProgress < (s.chan ch).physLines then some .fillWrite else none) ∧
    ((s.chan ch).state = .disabled →
      s.nextOp ch = if (s.chan ch).wbNext.isSome then some .writeBack else none) ∧
    ((s.chan ch).state = .online →
      (∀ (q : QEntry) (p : Probe), (s.chan ch).head = some q → q.stage = .mergeIssued p → s.nextOp ch = none) ∧
      (∀ (q : QEntry) (p : Probe) (plan : Vector CwWrite 8) (o : WriteOutcome), (s.chan ch).head = some q →
        q.stage = .mergeDecoded p plan o → s.nextOp ch = some .mergeWrite) ∧
      ((∀ q, (s.chan ch).head = some q → q.stage = .waiting) →
        ((s.chan ch).owed ≠ [] → s.nextOp ch = some .poisonWrite) ∧
        ((s.chan ch).owed = [] → (s.chan ch).demandCount = 8 → (s.chan ch).wbNext.isSome = true →
          s.nextOp ch = some .writeBack) ∧
        (∀ o, (s.chan ch).owed = [] → (s.chan ch).demandCount ≠ 8 ∨ (s.chan ch).wbNext = none →
          s.demandOp ch = some o → s.nextOp ch = some o) ∧
        ((s.chan ch).owed = [] → s.demandOp ch = none →
          ((s.chan ch).wbNext.isSome = true → s.nextOp ch = some .writeBack) ∧
          (∀ o, (s.chan ch).wbNext = none → (s.chan ch).migrationOp = some o → s.nextOp ch = some o) ∧
          ((s.chan ch).wbNext = none → (s.chan ch).migrationOp = none →
            s.nextOp ch = if (s.chan ch).patrolReady = true then some .patrolStep else none))))

/-- When the arbiter's choice is a demand read, a merge read, a copy read or a verify read, its command issues one read at the
location given, in the order of issue; migration reads spend a unit of budget, and nothing else of the part changes (R81,
R87, R97, R98, R153, R159). The location of a demand or merge read is R20's, and the probe keeps it (R21): the line where
there is no record or one that is WATCH, HOT or RETIRED; the spare slot of a SPARED record; of a SPARING one the source, which
is the line or, at a re-sparing, the spare slot (R16), with the target slot as a second location for a write once the copy
write has been issued. The probe also keeps the consecutive-demand count before the issue, which tells the write of a merge
read issued at count 7 (R97). -/
def Obligations.ReadsAreIssued : Prop :=
  (∀ (s : State) (ch : ChanId) (n : Nat) (p : Probe), p = s.probe ch n →
    (s.rec? ch n = none → p.loc = .line n ∧ p.sparing = false ∧ p.second = none) ∧
    p.count = (s.chan ch).demandCount ∧
    ∀ r : Record, s.rec? ch n = some r →
      (r.state = .watch ∨ r.state = .hot ∨ r.state = .retired →
        p.loc = .line n ∧ p.sparing = false ∧ p.second = none) ∧
      (∀ i : SlotId, r.state = .spared → r.spareSlot = some i →
        p.loc = .slot i ∧ p.sparing = false ∧ p.second = none) ∧
      (r.state = .sparing → p.sparing = true ∧
        (∀ i : SlotId, r.spareSlot = some i → p.loc = .slot i) ∧ (r.spareSlot = none → p.loc = .line n) ∧
        (∀ m : Migration, (s.chan ch).migration = some m → p.retry = m.retry ∧
          p.second = if m.copyWritten = true then r.targetSlot else none))) ∧
  ∀ (s : State) (ch : ChanId) (q : QEntry) (m : Migration) (k : Nat),
    k = (if (s.chan ch).wbq = [] then 0 else min 8 ((s.chan ch).demandCount + 1)) →
    (s.nextOp ch = some .demandRead → (s.chan ch).head = some q →
      (s.chan ch).inDram (s.probe ch q.req.line).loc = true →
      exec (.demandReadIssue ch) s = .next (s.modChan ch (fun c => { c with
        demandCount := k
        flights := c.flights ++ [
          { kind := .demand q.seq, line := q.req.line, loc := (s.probe ch q.req.line).loc
            words := c.lineAt ch (s.probe ch q.req.line).loc, moved := false }]
        queue := c.queue.map (fun x => if x.seq = q.seq then { x with stage := .readIssued } else x) }))) ∧
    (s.nextOp ch = some .mergeRead → (s.chan ch).head = some q →
      (s.chan ch).inDram (s.probe ch q.req.line).loc = true →
      exec (.mergeReadIssue ch) s = .next (s.modChan ch (fun c => { c with
        demandCount := k
        flights := c.flights ++ [
          { kind := .merge q.seq, line := q.req.line, loc := (s.probe ch q.req.line).loc
            words := c.lineAt ch (s.probe ch q.req.line).loc, moved := false }]
        queue := c.queue.map (fun x =>
          if x.seq = q.seq then { x with stage := .mergeIssued (s.probe ch q.req.line) } else x) }))) ∧
    (s.nextOp ch = some .copyRead → (s.chan ch).migration = some m → (s.chan ch).inDram m.source = true →
      exec (.copyReadIssue ch) s = .next (s.modChan ch (fun c => { c with
        demandCount := 0
        budget := c.budget - 1
        flights := c.flights ++ [
          { kind := .copy false, line := m.line, loc := m.source, words := c.lineAt ch m.source, moved := false }]
        migration := some { m with
          inFlight := true, held := some (Vector.replicate 8 { content := .unread, overlaid := false }) } }))) ∧
    (s.nextOp ch = some .verifyRead → (s.chan ch).migration = some m → (s.chan ch).inDram (.slot m.target) = true →
      exec (.verifyReadIssue ch) s = .next (s.modChan ch (fun c => { c with
        demandCount := 0
        budget := c.budget - 1
        flights := c.flights ++ [
          { kind := .verify false, line := m.line, loc := .slot m.target, words := c.lineAt ch (.slot m.target)
            moved := false }]
        migration := some { m with
          inFlight := true
          expected := cwSetOf (fun i =>
            match m.held with
            | some h => decide ((h.get i).content = .poison)
            | none   => false) } })))

/-- The decode of a demand read: the response's outcome, bytes and poison mask, POISON_READ, the poison write owed for the
UNCORRECTABLE codewords and the write-back offers where the class has demand write-back, each of which replaces the entry for
its location and codeword, joins the tail of fewer than four entries, or is dropped (R92); a slot that has changed state gets
neither; the events go to the table and to Capture and Alert (R82, R83, R142, R168). Of the reads in flight the others stay,
marked only where a selection that the delivery brings about allocates their slot (R142, R147). -/
def Obligations.DemandReadDecodes : Prop :=
  ∀ (s : State) (ch : ChanId) (upsets : LineWords) (f : Flight) (rest : List Flight) (q : QEntry)
    (reps : Vector Report 8),
    (s.chan ch).flights = f :: rest → f.kind = .demand q.seq →
    (s.chan ch).queue.find? (fun x => x.seq == q.seq) = some q → reps = reportsOf f.words upsets →
    ∃ t : State, exec (.demandReadDecode ch upsets) s = .next t ∧ s.OnlyChannel t ch ∧
      (∃ (o : ReadOutcome) (data : LineData) (mask : CwSet),
        (t.chan ch).queue = (s.chan ch).queue.map (fun x =>
          if x.seq = q.seq then { x with stage := .readDone o data mask } else x) ∧
        (∀ i : CwIndex, CwSet.has mask i = (reps.get i).verdict.isLost) ∧
        (∀ i : CwIndex, LineData.codeword data i =
          if (reps.get i).verdict.isLost then 0 else (reps.get i).data) ∧
        o = (if ∃ i : CwIndex, (reps.get i).verdict.isLost = true then .poison
          else if ∃ i : CwIndex, (reps.get i).verdict.isCe = true then .corrected else .clean)) ∧
      (hasCause s.causes .poisonRead = true ∨ (∃ i : CwIndex, (reps.get i).verdict = .poison) ↔
        hasCause t.causes .poisonRead = true) ∧
      (t.chan ch).flights = rest.map ((s.chan ch).movedBy (t.chan ch)) ∧ (s.chan ch).KeptByDecode (t.chan ch) ∧
      (t.chan ch).patrol = (s.chan ch).patrol ∧ (t.chan ch).demandCount = (s.chan ch).demandCount ∧
      s.TableKeptBut t ch q.req.line ∧ s.Delivers t ch q.req.line .demandRead reps ∧
      s.HandsOver t ch .demandRead q.req.line f.loc (some q.req.tag) reps ∧
      s.CausesKeptBut t [.ue, .ueCritical, .poisonRead, .tableFull, .spareExhausted] ∧
      ((∀ i : CwIndex, (reps.get i).verdict = .clean) → t = { s with chans := t.chans } ∧
        t.chan ch = { s.chan ch with flights := rest, queue := (t.chan ch).queue }) ∧
      (f.moved = true → (t.chan ch).owed = (s.chan ch).owed ∧ (t.chan ch).wbq = (s.chan ch).wbq) ∧
      (f.moved = false →
        (t.chan ch).owed = (s.chan ch).owed ++
          (if ∃ i : CwIndex, (reps.get i).verdict = .uncorrectable then
            [{ line := q.req.line, loc := f.loc
               cws := cwSetOf (fun i => decide ((reps.get i).verdict = .uncorrectable)), owner := .demand q.seq }]
          else []) ∧
        ((s.policy (s.classOf ch q.req.line)).demandWb = false → (t.chan ch).wbq = (s.chan ch).wbq) ∧
        ((s.policy (s.classOf ch q.req.line)).demandWb = true →
          DemandOffers (s.chan ch).wbq ((List.finRange 8).filterMap (fun i => (reps.get i).fixed.map (fun w =>
            ({ loc := f.loc, cw := i, content := w } : WbEntry)))) (t.chan ch).wbq))

/-- The decode of a merge read: what its write will write to each codeword by its kind and outcome (R88), and the write's
outcome judged over the codewords that are not full (R89); it raises no POISON_READ, owes no poison write and offers no
write-back (R87); the events go to the table and to Capture and Alert (R22, R168). The data of a codeword and its mask bits
are bytes 8i to 8i + 7 of the request's (R3, R78, R85), and a merged codeword has the request's bytes where its mask bits are
set and the decoded ones elsewhere (R88). -/
def Obligations.MergeReadDecodes : Prop :=
  (∀ (mask : Byte) (old new : Data) (j : Fin 8), (mergeBytes mask old new).extractLsb' (8 * j.val) 8 =
    if mask.getLsbD j.val then new.extractLsb' (8 * j.val) 8 else old.extractLsb' (8 * j.val) 8) ∧
  (∀ (mask : BitVec 64) (data : LineData) (i : CwIndex) (j : Fin 8),
    (maskOf mask i).getLsbD j.val = mask.getLsbD (8 * i.val + j.val) ∧
    (LineData.codeword data i).extractLsb' (8 * j.val) 8 = data.extractLsb' (8 * (8 * i.val + j.val)) 8) ∧
  ∀ (s : State) (ch : ChanId) (upsets : LineWords) (f : Flight) (rest : List Flight) (q : QEntry) (p : Probe)
    (data : LineData) (mask : BitVec 64) (reps : Vector Report 8),
    (s.chan ch).flights = f :: rest → f.kind = .merge q.seq →
    (s.chan ch).queue.find? (fun x => x.seq == q.seq) = some q → q.stage = .mergeIssued p →
    q.req.kind = .write data mask → reps = reportsOf f.words upsets →
    ∃ t plan o, exec (.mergeReadDecode ch upsets) s = .next t ∧ s.OnlyChannel t ch ∧
      (t.chan ch).queue = (s.chan ch).queue.map (fun x =>
        if x.seq = q.seq then { x with stage := .mergeDecoded p plan o } else x) ∧
      (∀ i : CwIndex,
        (maskOf mask i = 0xFF → plan.get i = .word (encode (LineData.codeword data i))) ∧
        (maskOf mask i ≠ 0xFF → maskOf mask i ≠ 0 →
          plan.get i = if (reps.get i).verdict.isLost then .marker
            else .word (encode (mergeBytes (maskOf mask i) (reps.get i).data (LineData.codeword data i)))) ∧
        (maskOf mask i = 0 →
          ((reps.get i).verdict = .uncorrectable → plan.get i = .marker) ∧
          (∀ w, (reps.get i).verdict.isCe = true → (reps.get i).fixed = some w →
            (s.policy (s.classOf ch q.req.line)).demandWb = true → plan.get i = .word w) ∧
          ((reps.get i).verdict.isCe = true → (s.policy (s.classOf ch q.req.line)).demandWb = false →
            plan.get i = .keep) ∧
          ((reps.get i).verdict = .clean ∨ (reps.get i).verdict = .poison → plan.get i = .keep))) ∧
      o = (if ∃ i : CwIndex, maskOf mask i ≠ 0xFF ∧ (reps.get i).verdict.isLost = true then .poisonKept
        else if ∃ i : CwIndex, maskOf mask i ≠ 0xFF ∧ (reps.get i).verdict.isCe = true then .doneCorrected
        else .done) ∧
      (t.chan ch).owed = (s.chan ch).owed ∧ (t.chan ch).wbq = (s.chan ch).wbq ∧
      (s.chan ch).KeptByDecode (t.chan ch) ∧ (t.chan ch).flights = rest.map ((s.chan ch).movedBy (t.chan ch)) ∧
      (t.chan ch).patrol = (s.chan ch).patrol ∧ (t.chan ch).demandCount = (s.chan ch).demandCount ∧
      s.TableKeptBut t ch q.req.line ∧ s.Delivers t ch q.req.line .demandMerge reps ∧
      s.HandsOver t ch .demandMerge q.req.line f.loc (some q.req.tag) reps ∧
      s.CausesKeptBut t [.ue, .ueCritical, .tableFull, .spareExhausted] ∧
      ((∀ i : CwIndex, (reps.get i).verdict = .clean) → t = { s with chans := t.chans } ∧
        t.chan ch = { s.chan ch with flights := rest, queue := (t.chan ch).queue })

/-- The issue of a demand write, with or without a merge read: DRAM holds what the plan writes at every location it goes
to and is unchanged elsewhere; the request's outcome is set; the codewords written full leave the poison set of the record
at each location and those written with the marker join it; entries and held offers for the written codewords are dropped,
and if an entry left, the held offers that stay are offered again (R114, R115); the written codewords leave the poison
writes owed to those locations, and are marked superseded on a patrol read in flight there; a write whose probe answered
SPARING fills the held copy's entries; the consecutive-demand count rises by 1, up to 8, while the queue holds an entry,
but not for the write of a merge read issued at count 7, and becomes 0 when no entry stays (R97); nothing else changes
(R20, R24, R84, R86, R88, R90, R116, R155, R157). The model's readings: which record a notice reaches at each of two
locations (log entry 11), that a write stands in DRAM from its issue (log entry 12), where a write goes whose migration
has failed or begun a later attempt since its probe (log entry 13), and that the count is 0 when no entry stays also where
held offers join (log entry 26). -/
def Obligations.DemandWritesReachDram : Prop :=
  ∀ (s : State) (ch : ChanId) (q : QEntry) (data : LineData) (mask : BitVec 64) (p : Probe)
    (plan : Vector CwWrite 8) (o : WriteOutcome) (locs : List Loc) (i : Instr) (k : Nat),
    (s.chan ch).head = some q → q.req.kind = .write data mask →
    ((s.nextOp ch = some .demandWrite ∧ i = .demandWriteIssue ch ∧ p = s.probe ch q.req.line ∧ o = .done ∧
        k = (if (s.chan ch).wbq = [] then 0 else min 8 ((s.chan ch).demandCount + 1)) ∧
        ∀ c : CwIndex, plan.get c =
          if maskOf mask c = 0xFF then .word (encode (LineData.codeword data c)) else .keep) ∨
      (s.nextOp ch = some .mergeWrite ∧ i = .mergeWriteIssue ch ∧ q.stage = .mergeDecoded p plan o ∧
        k = (if p.count = 7 then (s.chan ch).demandCount
          else if (s.chan ch).wbq = [] then 0 else min 8 ((s.chan ch).demandCount + 1)))) →
    locs = p.loc :: ((s.secondAt ch q.req.line p).toList.map Loc.slot) →
    (∀ l ∈ locs, (s.chan ch).inDram l = true) →
    ∃ t : State, exec i s = .next t ∧ s.OnlyChannel t ch ∧ t.causes = s.causes ∧
      (t.chan ch).DramHolds ch locs plan ∧ (s.chan ch).DramKeptBut (t.chan ch) locs (writtenSet plan) ∧
      (t.chan ch).queue = (s.chan ch).queue.map (fun x =>
        if x.seq = q.seq then { x with stage := .written o } else x) ∧
      (s.chan ch).Drops (t.chan ch) k (fun e => decide (e.loc ∈ locs) && CwSet.has (writtenSet plan) e.cw) ∧
      (∀ c : CwIndex, CwSet.has (writtenSet plan) c = decide (plan.get c ≠ .keep)) ∧
      (s.chan ch).KeptByWrite (t.chan ch) ∧
      t.table.map (fun r => { r with poison := 0 }) = s.table.map (fun r => { r with poison := 0 }) ∧
      t.table = s.table.map (fun r => if r.key.channel = ch ∧ r.location ∈ locs then { r with
        poison := (r.poison &&& ~~~(cwSetOf (fun c => decide (maskOf mask c = 0xFF)))) |||
          (if r.state = .retired then 0 else cwSetOf (fun c => decide (plan.get c = .marker))) } else r) ∧
      (t.chan ch).patrol.current = (s.chan ch).patrol.current.map (fun r =>
        if r.loc ∈ locs ∧ r.decoded = false then { r with marks := r.marks ||| writtenSet plan } else r) ∧
      (t.chan ch).owed = ((s.chan ch).owed.map (fun w =>
        if w.loc ∈ locs then { w with cws := w.cws &&& ~~~(writtenSet plan) } else w)).filter
          (fun w => !(decide (w.loc ∈ locs) && decide (w.cws = 0))) ∧
      (∀ (m : Migration) (h : Vector HeldEntry 8), (s.chan ch).migration = some m → m.held = some h →
        p.sparing = true → m.line = q.req.line →
        ∃ g : Vector HeldEntry 8, (t.chan ch).migration = some { m with held := some g } ∧
          ∀ c : CwIndex,
            (plan.get c = .keep → g.get c = h.get c) ∧
            (∀ w, plan.get c = .word w → (g.get c).content = .data (Codeword.data w)) ∧
            (plan.get c = .marker → (g.get c).content = .poison) ∧
            (plan.get c ≠ .keep → (g.get c).overlaid =
              ((h.get c).overlaid || (decide (m.phase = .copyRead) && m.inFlight)))) ∧
      (∀ m : Migration, (s.chan ch).migration = some m →
        m.held = none ∨ p.sparing = false ∨ m.line ≠ q.req.line → (t.chan ch).migration = some m) ∧
      ((s.chan ch).migration = none → (t.chan ch).migration = none ∧ s.secondAt ch q.req.line p = p.second) ∧
      (∀ m : Migration, (s.chan ch).migration = some m →
        (p.sparing = false ∨ m.line ≠ q.req.line ∨ m.retry ≤ p.retry → s.secondAt ch q.req.line p = p.second) ∧
        (p.sparing = true → m.line = q.req.line → p.retry < m.retry → s.secondAt ch q.req.line p = none))

/-- The issue of an owed poison write, of a Write-back Queue entry and of a fill write: what each writes in DRAM and that it
leaves every other codeword, what it does to the poison sets, and what else of the channel changes (R24, R75, R84, R94).
A poison write whose key is SPARING from the location it is owed to reaches the migration too: the target slot once the copy
write has been issued, and the held copy (R84, R155, R157). Entries and held offers for the codewords it writes are dropped;
when an entry leaves the Write-back Queue, the held offers that stay are offered again in order, each joining the tail while
there is room or replacing the entry for its own location and codeword (R92, R114, R115). Which record a notice reaches is
log entry 11's reading. -/
def Obligations.PoisonWriteBackAndFillWrites : Prop :=
  (∀ (s : State) (ch : ChanId) (o : Owed) (i : SlotId), s.poisonSecond ch o = some i ↔
    ∃ (m : Migration) (r : Record), (s.chan ch).migration = some m ∧ s.rec? ch o.line = some r ∧ r.state = .sparing ∧
      m.line = o.line ∧ m.source = o.loc ∧ m.copyWritten = true ∧ m.target = i) ∧
  ∀ (s : State) (ch : ChanId),
    (∀ (o : Owed) (rest : List Owed) (locs : List Loc), s.nextOp ch = some .poisonWrite →
      (s.chan ch).owed = o :: rest → locs = o.loc :: ((s.poisonSecond ch o).toList.map Loc.slot) →
      (∀ l ∈ locs, (s.chan ch).inDram l = true) →
      ∃ t : State, exec (.poisonWriteIssue ch) s = .next t ∧ s.OnlyChannel t ch ∧ t.causes = s.causes ∧
        (t.chan ch).owed = rest ∧ (t.chan ch).DramHolds ch locs (poisonPlan o.cws) ∧
        (s.chan ch).DramKeptBut (t.chan ch) locs o.cws ∧
        t.table = s.table.map (fun r => if r.key.channel = ch ∧ r.location ∈ locs ∧ r.state ≠ .retired then
          { r with poison := r.poison ||| o.cws } else r) ∧
        (s.chan ch).Drops (t.chan ch) 0 (fun e => decide (e.loc ∈ locs) && CwSet.has o.cws e.cw) ∧
        (∀ (m : Migration) (h : Vector HeldEntry 8) (r : Record), (s.chan ch).migration = some m → m.held = some h →
          s.rec? ch o.line = some r → r.state = .sparing → m.line = o.line → m.source = o.loc →
          ∃ g : Vector HeldEntry 8, (t.chan ch).migration = some { m with held := some g } ∧
            ∀ c : CwIndex,
              (CwSet.has o.cws c = false → g.get c = h.get c) ∧
              (CwSet.has o.cws c = true → (g.get c).content = .poison ∧ (g.get c).overlaid =
                ((h.get c).overlaid || (decide (m.phase = .copyRead) && m.inFlight)))) ∧
        (∀ m : Migration, (s.chan ch).migration = some m →
          m.held = none ∨ m.line ≠ o.line ∨ m.source ≠ o.loc ∨
            (∀ r, s.rec? ch o.line = some r → r.state ≠ .sparing) → (t.chan ch).migration = some m) ∧
        (s.chan ch).KeptByWrite (t.chan ch) ∧ (t.chan ch).queue = (s.chan ch).queue ∧
        (t.chan ch).patrol.current = (s.chan ch).patrol.current ∧ (t.chan ch).demandCount = 0) ∧
    (∀ w : WbEntry, s.nextOp ch = some .writeBack → (s.chan ch).wbNext = some w → (s.chan ch).inDram w.loc = true →
      ∃ t : State, exec (.writeBackIssue ch) s = .next t ∧ s.OnlyChannel t ch ∧ t.causes = s.causes ∧
        (t.chan ch).cwAt ch w.loc w.cw = w.content ∧
        (s.chan ch).DramKeptBut (t.chan ch) [w.loc] (cwBit w.cw) ∧
        PatrolOffers ((s.chan ch).wbq.erase w) (s.chan ch).patrol.held (t.chan ch).wbq (t.chan ch).patrol.held ∧
        t.table = s.table.map (fun r => if r.key.channel = ch ∧ r.location = w.loc then
          { r with poison := r.poison &&& ~~~(cwBit w.cw) } else r) ∧
        (s.chan ch).KeptByWrite (t.chan ch) ∧ (t.chan ch).queue = (s.chan ch).queue ∧
        (t.chan ch).owed = (s.chan ch).owed ∧ (t.chan ch).migration = (s.chan ch).migration ∧
        (t.chan ch).patrol.current = (s.chan ch).patrol.current ∧ (t.chan ch).demandCount = 0) ∧
    ((s.chan ch).state = .initializing → (s.chan ch).fillProgress < (s.chan ch).physLines →
      512 ≤ (s.chan ch).physLines →
      ∃ t : State, exec (.fillWriteIssue ch) s = .next t ∧ s.OnlyChannel t ch ∧ t.table = s.table ∧
        (∀ i : CwIndex, (t.chan ch).cwAt ch (.line (s.chan ch).fillProgress) i = 0) ∧
        (s.chan ch).DramKeptBut (t.chan ch) [.line (s.chan ch).fillProgress] 0xFF ∧
        t.chan ch = { s.chan ch with
          dram := (t.chan ch).dram, demandCount := 0, fillProgress := (s.chan ch).fillProgress + 1
          state := if (s.chan ch).fillProgress + 1 = (s.chan ch).physLines then .online else .initializing } ∧
        t.causes = if (s.chan ch).fillProgress + 1 = (s.chan ch).physLines then s.causes ||| Cause.channelReady.single
          else s.causes)

/-! ### Migration -/

/-- The decode of a standing migration's copy read fills every held copy entry that is not overlaid, makes the phase
COPY_WRITE and owes the source a poison write for the UNCORRECTABLE codewords that are not overlaid (R154); the copy write
writes the held copy to the target slot and nowhere else, and the phase becomes VERIFY_READ (R156). The events go to the
table and to Capture and Alert (R168). The decode of a copy read or verify read that has outlived its migration does this
alone: it forms no held copy, owes nothing, offers nothing and is not judged (R163). -/
def Obligations.CopyReadAndCopyWrite : Prop :=
  (∀ (s : State) (ch : ChanId) (m : Migration) (h : Vector HeldEntry 8), (s.chan ch).migration = some m →
    m.held = some h →
    (∀ (upsets : LineWords) (f : Flight) (rest : List Flight) (reps : Vector Report 8),
      (s.chan ch).flights = f :: rest → f.kind = .copy false → reps = reportsOf f.words upsets →
      ∃ t g, exec (.copyReadDecode ch upsets) s = .next t ∧ s.OnlyChannel t ch ∧
        (t.chan ch).migration = some { m with phase := .copyWrite, inFlight := false, held := some g } ∧
        (∀ i : CwIndex, (g.get i).overlaid = (h.get i).overlaid ∧
          ((h.get i).overlaid = true → (g.get i).content = (h.get i).content) ∧
          ((h.get i).overlaid = false → (g.get i).content =
            if (reps.get i).verdict.isLost then .poison else .data (reps.get i).data)) ∧
        (t.chan ch).flights = rest ∧ (s.chan ch).KeptByDecode (t.chan ch) ∧ (t.chan ch).wbq = (s.chan ch).wbq ∧
        (t.chan ch).queue = (s.chan ch).queue ∧ (t.chan ch).patrol = (s.chan ch).patrol ∧
        (t.chan ch).slots = (s.chan ch).slots ∧ (t.chan ch).exhausted = (s.chan ch).exhausted ∧
        (t.chan ch).demandCount = (s.chan ch).demandCount ∧ s.TableKeptBut t ch f.line ∧
        t.table = (s.deliver ch f.line .migration reps).table ∧
        hasCause t.causes .tableFull = hasCause (s.deliver ch f.line .migration reps).causes .tableFull ∧
        s.HandsOver t ch .migration f.line f.loc none reps ∧
        s.CausesKeptBut t [.ue, .ueCritical, .tableFull] ∧
        (f.moved = true → (t.chan ch).owed = (s.chan ch).owed) ∧
        (f.moved = false → (t.chan ch).owed = (s.chan ch).owed ++
          (if ∃ i : CwIndex, (reps.get i).verdict = .uncorrectable ∧ (h.get i).overlaid = false then
            [{ line := f.line, loc := f.loc
               cws := cwSetOf (fun i => decide ((reps.get i).verdict = .uncorrectable) && !(h.get i).overlaid)
               owner := .migration }]
          else []))) ∧
    (s.nextOp ch = some .copyWrite → (s.chan ch).inDram (.slot m.target) = true →
      ∃ t : State, exec (.copyWriteIssue ch) s = .next t ∧ s.OnlyChannel t ch ∧ t.table = s.table ∧ t.causes = s.causes ∧
        (∀ i : CwIndex,
          (∀ d, (h.get i).content = .data d → (t.chan ch).cwAt ch (.slot m.target) i = encode d) ∧
          ((h.get i).content = .poison → (t.chan ch).cwAt ch (.slot m.target) i = marker)) ∧
        (s.chan ch).DramKeptBut (t.chan ch) [.slot m.target] 0xFF ∧
        t.chan ch = { s.chan ch with
          dram := (t.chan ch).dram, demandCount := 0
          migration := some { m with copyWritten := true, phase := .verifyRead, inFlight := false } })) ∧
  ∀ (s : State) (ch : ChanId) (upsets : LineWords) (f : Flight) (rest : List Flight) (reps : Vector Report 8)
    (i : Instr), (s.chan ch).flights = f :: rest → reps = reportsOf f.words upsets →
    (f.kind = .copy true ∧ i = .copyReadDecode ch upsets) ∨ (f.kind = .verify true ∧ i = .verifyReadDecode ch upsets) →
    ∃ t : State, exec i s = .next t ∧ s.OnlyChannel t ch ∧ (s.chan ch).KeptByDecode (t.chan ch) ∧
      s.Delivers t ch f.line .migration reps ∧ s.HandsOver t ch .migration f.line f.loc none reps ∧
      s.TableKeptBut t ch f.line ∧ s.CausesKeptBut t [.ue, .ueCritical, .tableFull, .spareExhausted] ∧
      (t.chan ch).queue = (s.chan ch).queue ∧ (t.chan ch).owed = (s.chan ch).owed ∧
      (t.chan ch).wbq = (s.chan ch).wbq ∧ (t.chan ch).patrol = (s.chan ch).patrol ∧
      (t.chan ch).demandCount = (s.chan ch).demandCount ∧
      (t.chan ch).flights = rest.map ((s.chan ch).movedBy (t.chan ch)) ∧
      (∀ m, (s.chan ch).migration = some m → (t.chan ch).migration = some m ∧ (t.chan ch).slots = (s.chan ch).slots) ∧
      ((∀ k : CwIndex, (reps.get k).verdict = .clean) → t = { s with chans := t.chans } ∧
        t.chan ch = { s.chan ch with flights := rest })

/-- The decode of a standing migration's verify read: a pass commits the record to SPARED at the target slot with a fresh
score and raises MIGRATION_DONE; a failure makes the target DEFECTIVE and either takes the lowest FREE slot for a new
attempt or, at the third failure or without a FREE slot, returns the record to its prior state with hold set and raises
MIGRATION_FAILED (R31, R159 to R162); a commit or a failure ends the migration, and a selection follows. The delivery
comes first, and the events go to Capture and Alert (R159, R168). The reads in flight at a slot that changes state are
marked, and no others; at a slot that becomes DEFECTIVE the write-back entries and held offers are dropped (R93, R115,
R142). Where entries leave and held offers join in one change, the count of R97 is 0 when none of the entries stays, which
is the model's choice (log entry 26). -/
def Obligations.VerifyCommitsRetriesOrFails : Prop :=
  ∀ (s : State) (ch : ChanId) (m : Migration) (upsets : LineWords) (f : Flight) (rest : List Flight)
    (reps : Vector Report 8), s.SparingSound → (s.chan ch).migration = some m → f.line = m.line →
    (s.chan ch).flights = f :: rest → f.kind = .verify false → reps = reportsOf f.words upsets →
    ∃ t : State, exec (.verifyReadDecode ch upsets) s = .next t ∧ s.OnlyChannel t ch ∧
      (s.chan ch).KeptByDecode (t.chan ch) ∧ (t.chan ch).queue = (s.chan ch).queue ∧
      (t.chan ch).owed = (s.chan ch).owed ∧ (t.chan ch).patrol.current = (s.chan ch).patrol.current ∧
      s.TableKeptBut t ch m.line ∧ s.HandsOver t ch .migration m.line f.loc none reps ∧
      s.CausesKeptBut t [.ue, .ueCritical, .tableFull, .spareExhausted, .migrationDone, .migrationFailed] ∧
      (∃ r p, (s.deliver ch m.line .migration reps).rec? ch m.line = some r ∧ r.priorState = some p ∧
        ((∀ i : CwIndex, (reps.get i).verdict = if CwSet.has m.expected i then .poison else .clean) →
          t.rec? ch m.line = some { r with
            state := .spared, score := 0, rep := 0, lastBit := none, spareWanted := false, spareSlot := some m.target
            targetSlot := none, priorState := none }) ∧
        ((∃ i : CwIndex, (reps.get i).verdict ≠ if CwSet.has m.expected i then .poison else .clean) →
          (∀ i : SlotId, m.retry < 2 → (s.chan ch).slots.get i = .free →
            (∀ j : SlotId, j < i → (s.chan ch).slots.get j ≠ .free) →
            t.rec? ch m.line = some { r with targetSlot := some i }) ∧
          (2 ≤ m.retry ∨ (∀ i : SlotId, (s.chan ch).slots.get i ≠ .free) →
            t.rec? ch m.line = some { r with
              state := p.toState, targetSlot := none, priorState := none, hold := true }))) ∧
      ((∀ i : CwIndex, (reps.get i).verdict = if CwSet.has m.expected i then .poison else .clean) →
        hasCause t.causes .migrationDone = true ∧ (t.chan ch).slots.get m.target = .allocated ∧
        (∃ r, t.rec? ch m.line = some r ∧ r.state = .spared ∧ r.spareSlot = some m.target ∧ r.targetSlot = none ∧
          r.priorState = none ∧ r.score = 0 ∧ r.rep = 0 ∧ r.lastBit = none ∧ r.spareWanted = false) ∧
        (∀ i, m.source = .slot i → (t.chan ch).slots.get i = .defective) ∧
        (t.chan ch).flights = rest.map ((s.chan ch).movedBy (t.chan ch)) ∧
        (∀ n, m.source = .line n → (t.chan ch).wbq = (s.chan ch).wbq ∧ (t.chan ch).patrol = (s.chan ch).patrol ∧
          (t.chan ch).demandCount = (s.chan ch).demandCount) ∧
        (∀ i, m.source = .slot i → (s.chan ch).Drops (t.chan ch) (s.chan ch).demandCount (WbEntry.atSlot i)) ∧
        ∃ u : State, t = u.select ch ∧ (u.chan ch).migration = none ∧
          (u.chan ch).slots = (match m.source with
            | .slot i => (s.chan ch).slots.set i.val .defective
            | .line _ => (s.chan ch).slots) ∧
          (u.chan ch).exhausted = (match m.source with
            | .slot _ => false
            | .line _ => (s.chan ch).exhausted)) ∧
      ((∃ i : CwIndex, (reps.get i).verdict ≠ if CwSet.has m.expected i then .poison else .clean) →
        (t.chan ch).slots.get m.target = .defective ∧
        (s.chan ch).Drops (t.chan ch) (s.chan ch).demandCount (WbEntry.atSlot m.target) ∧
        (∀ i : SlotId, m.retry < 2 → (s.chan ch).slots.get i = .free →
          (∀ j : SlotId, j < i → (s.chan ch).slots.get j ≠ .free) →
          (t.chan ch).migration = some { m with
            target := i, retry := m.retry + 1, phase := .copyRead, inFlight := false, copyWritten := false
            held := none, expected := 0 } ∧
          (t.chan ch).slots = ((s.chan ch).slots.set m.target.val .defective).set i.val .allocated ∧
          (t.chan ch).exhausted = false ∧ (t.chan ch).flights = rest.map ((s.chan ch).movedBy (t.chan ch)) ∧
          ∃ r, t.rec? ch m.line = some r ∧ r.state = .sparing ∧ r.targetSlot = some i) ∧
        (2 ≤ m.retry ∨ (∀ i : SlotId, (s.chan ch).slots.get i ≠ .free) →
          hasCause t.causes .migrationFailed = true ∧
          (t.chan ch).flights = markLate (rest.map ((s.chan ch).movedBy (t.chan ch))) ∧
          (∃ u : State, t = u.select ch ∧ (u.chan ch).migration = none ∧
            (u.chan ch).slots = (s.chan ch).slots.set m.target.val .defective ∧
            (u.chan ch).exhausted = decide (m.retry < 2) ∧
            (m.retry < 2 → hasCause u.causes .spareExhausted = true)) ∧
          ∃ r q, s.rec? ch m.line = some r ∧ t.rec? ch m.line = some q ∧
            q.state = (match r.priorState with | some .spared => .spared | _ => .hot) ∧ q.hold = true ∧
            q.targetSlot = none ∧ q.priorState = none ∧ q.spareSlot = r.spareSlot))

/-! ### Patrol -/

/-- An issue step of the Patrol Engine (R106, R119): a focus read of the next HOT line after the cursor when one is due and
qualifies; otherwise an ordinary read at the ready line or, past lines whose records are RETIRED or SPARING, at the next
line that is patrolled; each read spends a unit of budget. Skips that reach the end of the channel are a pass end. The line of
a focus read is the lowest candidate above the cursor, or the lowest of all where none lies above it. -/
def Obligations.PatrolIssueSteps : Prop :=
  (∀ (s : State) (ch : ChanId) (l : Nat),
    focusPick (s.chan ch).patrol.focusCursor (s.focusLines ch) = some l ↔
      s.FocusCandidate ch l ∧
        ((AboveCursor (s.chan ch).patrol.focusCursor l ∧
            ∀ k, s.FocusCandidate ch k → AboveCursor (s.chan ch).patrol.focusCursor k → l ≤ k) ∨
          ((∀ k, s.FocusCandidate ch k → ¬ AboveCursor (s.chan ch).patrol.focusCursor k) ∧
            ∀ k, s.FocusCandidate ch k → l ≤ k))) ∧
  ∀ (s : State) (ch : ChanId), s.nextOp ch = some .patrolStep →
    (∀ l : Nat, s.settings.focusInterval ≠ 0 → s.settings.focusInterval ≤ (s.chan ch).patrol.focusCount →
      focusPick (s.chan ch).patrol.focusCursor (s.focusLines ch) = some l → (s.chan ch).inDram (.line l) = true →
      exec (.patrolIssueStep ch) s = .next (s.modChan ch (fun c => { c with
        demandCount := 0
        budget := c.budget - 1
        flights := c.flights ++ [
          { kind := .patrol, line := l, loc := .line l, words := c.lineAt ch (.line l), moved := false }]
        patrol := { c.patrol with
          focusCursor := some l
          focusCount := 0
          current := some
            { kind := .focus, line := l, loc := .line l, marks := 0, decoded := false
              acrossReset := false } } }))) ∧
    (∀ (l n : Nat) (loc : Loc),
      (s.settings.focusInterval = 0 ∨ (s.chan ch).patrol.focusCount < s.settings.focusInterval ∨
        focusPick (s.chan ch).patrol.focusCursor (s.focusLines ch) = none) →
      n = (if s.settings.focusInterval = 0 then (s.chan ch).patrol.focusCount
        else if (s.chan ch).patrol.focusCount < s.settings.focusInterval then
          min 64 ((s.chan ch).patrol.focusCount + 1)
        else 1) →
      (l = (s.chan ch).patrol.position ∨
        ((s.chan ch).patrol.position < l ∧ l < (s.chan ch).visible ∧ s.classOf ch l ≠ .unscrubbed ∧
          lineSkipped s.table ch (s.chan ch).patrol.position = true)) →
      lineSkipped s.table ch l = false →
      (∀ k : Nat, (s.chan ch).patrol.position < k → k < l →
        s.classOf ch k = .unscrubbed ∨ lineSkipped s.table ch k = true) →
      loc = (match s.rec? ch l with | some r => r.location | none => .line l) → (s.chan ch).inDram loc = true →
      exec (.patrolIssueStep ch) s = .next (s.modChan ch (fun c => { c with
        demandCount := 0
        budget := c.budget - 1
        flights := c.flights ++ [
          { kind := .patrol, line := l, loc := loc, words := c.lineAt ch loc, moved := false }]
        patrol := { c.patrol with
          position := l
          focusCount := n
          current := some
            { kind := .ordinary, line := l, loc := loc, marks := 0, decoded := false
              acrossReset := false } } }))) ∧
    (∀ n : Nat,
      (s.settings.focusInterval = 0 ∨ (s.chan ch).patrol.focusCount < s.settings.focusInterval ∨
        focusPick (s.chan ch).patrol.focusCursor (s.focusLines ch) = none) →
      n = (if s.settings.focusInterval = 0 then (s.chan ch).patrol.focusCount
        else if (s.chan ch).patrol.focusCount < s.settings.focusInterval then (s.chan ch).patrol.focusCount else 0) →
      lineSkipped s.table ch (s.chan ch).patrol.position = true →
      (∀ k : Nat, (s.chan ch).patrol.position < k → k < (s.chan ch).visible →
        s.classOf ch k = .unscrubbed ∨ lineSkipped s.table ch k = true) →
      exec (.patrolIssueStep ch) s = .next ((s.modChan ch (fun c => { c with
        patrol := { c.patrol with focusCount := n } })).endPass ch))

/-- The decode of a patrol or focus read: offers and an owed poison write for the codewords that are not superseded, unless the
record was RETIRED or the slot has changed state; each offer replaces the entry for its location and codeword or joins the
tail of fewer than four entries, and the first that finds the queue full is held with those behind it (R92, R111, R114); the
read is then decoded but not yet finished, and the events go to the table and to Capture and Alert (R110, R111, R112, R117,
R168). -/
def Obligations.PatrolReadDecodes : Prop :=
  ∀ (s : State) (ch : ChanId) (upsets : LineWords) (f : Flight) (rest : List Flight) (r : PatrolRead)
    (reps : Vector Report 8) (admits : Bool) (offers : List WbEntry),
    (s.chan ch).flights = f :: rest → f.kind = .patrol → (s.chan ch).patrol.current = some r →
    (s.chan ch).patrol.held = [] → reps = reportsOf f.words upsets →
    admits = (!f.moved && decide (∀ x, s.rec? ch r.line = some x → x.state ≠ .retired) &&
      (match f.loc with | .slot i => decide ((s.chan ch).slots.get i = .allocated) | .line _ => true)) →
    offers = (if admits then (List.finRange 8).filterMap (fun i =>
      if CwSet.has r.marks i then none else (reps.get i).fixed.map (fun w =>
        ({ loc := f.loc, cw := i, content := w } : WbEntry))) else []) →
    ∃ t : State, exec (.patrolReadDecode ch upsets) s = .next t ∧ s.OnlyChannel t ch ∧
      (s.chan ch).KeptByDecode (t.chan ch) ∧ (t.chan ch).queue = (s.chan ch).queue ∧
      (t.chan ch).flights = rest.map ((s.chan ch).movedBy (t.chan ch)) ∧
      (t.chan ch).demandCount = (s.chan ch).demandCount ∧
      s.TableKeptBut t ch r.line ∧
      s.Delivers t ch r.line (match r.kind with | .ordinary => .patrol | .focus => .focus) reps ∧
      s.HandsOver t ch (match r.kind with | .ordinary => .patrol | .focus => .focus) r.line f.loc none reps ∧
      s.CausesKeptBut t [.ue, .ueCritical, .tableFull, .spareExhausted] ∧
      ((∀ i : CwIndex, (reps.get i).verdict = .clean) → t = { s with chans := t.chans } ∧
        t.chan ch = { s.chan ch with
          flights := rest, patrol := { (s.chan ch).patrol with current := some { r with decoded := true } } }) ∧
      (t.chan ch).owed = (s.chan ch).owed ++
        (if admits = true ∧ ∃ i : CwIndex, (reps.get i).verdict = .uncorrectable ∧ CwSet.has r.marks i = false then
          [{ line := r.line, loc := f.loc
             cws := cwSetOf (fun i => decide ((reps.get i).verdict = .uncorrectable) && !CwSet.has r.marks i)
             owner := .patrol }]
        else []) ∧
      PatrolOffers (s.chan ch).wbq offers (t.chan ch).wbq (t.chan ch).patrol.held ∧
      (t.chan ch).patrol = { (s.chan ch).patrol with
        held := (t.chan ch).patrol.held, current := some { r with decoded := true } }

/-- The finish of a patrol read whose decode is complete, with nothing held and no poison write left owed (R104, R107): an
ordinary read under RUNNING moves on to the next patrolled line, a focus read moves nothing, and a HALTING engine becomes
IDLE, its position one further for an ordinary read that no SOFT_RESET found unfinished; beyond the last line it is a pass
end. -/
def Obligations.PatrolReadsFinish : Prop :=
  ∀ (s : State) (ch : ChanId) (r : PatrolRead), (s.chan ch).patrol.current = some r → r.decoded = true →
    (s.chan ch).patrol.held = [] → (∀ o ∈ (s.chan ch).owed, o.owner ≠ .patrol) →
    ((s.chan ch).patrol.state = .running → r.kind = .focus →
      exec (.patrolReadFinish ch) s = .next (s.modChan ch (fun c => { c with
        patrol := { c.patrol with current := none } }))) ∧
    (∀ l : Nat, (s.chan ch).patrol.state = .running → r.kind = .ordinary →
      (s.chan ch).patrol.position < l → l < (s.chan ch).visible → s.classOf ch l ≠ .unscrubbed →
      (∀ k : Nat, (s.chan ch).patrol.position < k → k < l → s.classOf ch k = .unscrubbed) →
      exec (.patrolReadFinish ch) s = .next (s.modChan ch (fun c => { c with
        patrol := { c.patrol with current := none, position := l } }))) ∧
    ((s.chan ch).patrol.state = .running → r.kind = .ordinary →
      (∀ k : Nat, (s.chan ch).patrol.position < k → k < (s.chan ch).visible → s.classOf ch k = .unscrubbed) →
      exec (.patrolReadFinish ch) s = .next ((s.modChan ch (fun c => { c with
        patrol := { c.patrol with current := none } })).endPass ch)) ∧
    ((s.chan ch).patrol.state = .halting → r.kind = .focus ∨ r.acrossReset = true →
      exec (.patrolReadFinish ch) s = .next (s.modChan ch (fun c => { c with
        patrol := { c.patrol with current := none, state := .idle } }))) ∧
    ((s.chan ch).patrol.state = .halting → r.kind = .ordinary → r.acrossReset = false →
      (s.chan ch).patrol.position + 1 < (s.chan ch).visible →
      exec (.patrolReadFinish ch) s = .next (s.modChan ch (fun c => { c with
        patrol := { c.patrol with current := none, state := .idle, position := c.patrol.position + 1 } }))) ∧
    ((s.chan ch).patrol.state = .halting → r.kind = .ordinary → r.acrossReset = false →
      (s.chan ch).visible ≤ (s.chan ch).patrol.position + 1 →
      exec (.patrolReadFinish ch) s = .next ((s.modChan ch (fun c => { c with
        patrol := { c.patrol with current := none } })).endPass ch))

/-- A pass end (R54 to R57, R108): the position becomes 0, the pass counter rises or returns to 0 after 65,535, a SINGLE pass
raises PASS_DONE, the engine becomes what R108's table says, and the channel's WATCH, HOT and SPARED records decay, the
others and those of other channels staying as they are. -/
def Obligations.PassEndDecaysRecords : Prop :=
  ∀ (s : State) (ch : ChanId),
    (∃ (st : PatrolState) (w : Bool), (s.endPass ch).chan ch = { s.chan ch with patrol := { (s.chan ch).patrol with
        position := 0, pass := ((s.chan ch).patrol.pass + 1) % 65536, state := st, startWait := w } } ∧
      ((s.chan ch).patrol.state = .running → (s.chan ch).patrol.mode = .single →
        st = .done ∧ w = (s.chan ch).patrol.startWait) ∧
      ((s.chan ch).patrol.state = .running → (s.chan ch).patrol.mode = .continuous → st = .running ∧ w = true) ∧
      ((s.chan ch).patrol.state = .halting → (s.chan ch).patrol.mode = .single →
        st = .done ∧ w = (s.chan ch).patrol.startWait) ∧
      ((s.chan ch).patrol.state = .halting → (s.chan ch).patrol.mode = .continuous →
        st = .idle ∧ w = (s.chan ch).patrol.startWait)) ∧
    ((s.endPass ch).chan ch).patrol.position = 0 ∧
    ((s.endPass ch).chan ch).patrol.pass = ((s.chan ch).patrol.pass + 1) % 65536 ∧
    ((s.chan ch).patrol.mode = .single → (s.endPass ch).causes = s.causes ||| Cause.passDone.single) ∧
    ((s.chan ch).patrol.mode = .continuous → (s.endPass ch).causes = s.causes) ∧
    s.OnlyChannel (s.endPass ch) ch ∧
    (∀ r ∈ s.table, r.key.channel ≠ ch ∨ r.state = .sparing ∨ r.state = .retired → r ∈ (s.endPass ch).table) ∧
    (∀ (r d : Record) (p : Policy) (n : Nat), r ∈ s.table → r.key.channel = ch →
      r.state = .watch ∨ r.state = .hot ∨ r.state = .spared → p = s.policy (s.classOf ch r.key.line) →
      n = (if r.score = 0 then 0 else r.score - (r.score / 2 ^ s.settings.decayShift + 1)) →
      d = { r with
        score := n
        age := min 255 (r.age + 1)
        state := if r.state = .hot ∧ n < p.tHot / 2 then .watch else r.state
        spareWanted := r.spareWanted && decide (p.tSpare ≤ n) } →
      (¬ (d.state = .watch ∧ d.score = 0 ∧ d.pinned = false ∧ d.poison = 0) → d ∈ (s.endPass ch).table) ∧
      (d.state = .watch ∧ d.score = 0 ∧ d.pinned = false ∧ d.poison = 0 → s.TableSound →
        (s.endPass ch).rec? ch r.key.line = none))

/-! ### The cadence -/

/-- SLOT_END opens the next slot, the next internal frame, or the wait for a BEAT; BEAT begins a frame while CADENCE_SOURCE is
EXTERNAL and has no effect otherwise; WATCHDOG_EXPIRY turns the source to INTERNAL, begins a frame and raises CADENCE_LOST
(R125 to R130, R203). That the moment moves on to the event is the model's choice (log entry 5). -/
def Obligations.CadenceEvents : Prop :=
  ∀ s : State,
    (∀ i e : Nat, s.cadence.slotIndex = some i → s.cadence.slotEnd = some e →
      (∀ r, s.cadence.watchdogRef = some r → e ≤ r + s.settings.cadenceTimeout) →
      ∃ t : State, exec .slotEnd s = .next t ∧ t.now = max s.now e ∧ t.causes &&& ~~~Cause.passDone.single =
          s.causes &&& ~~~Cause.passDone.single ∧
        (i + 1 < s.cadence.frameSlots → t.cadence = { s.cadence with
            slotIndex := some (i + 1), slotEnd := some (t.now + s.settings.slotLen) } ∧
          ∀ ch : ChanId, (t.chan ch).budget = s.budgetOf ch s.cadence.activePhase (i + 1)) ∧
        (s.cadence.frameSlots ≤ i + 1 → s.cadence.activeSource = .internal → s.FrameBegun t ∧
          ∀ ch : ChanId, (t.chan ch).budget =
            s.budgetOf ch (s.cadence.pendingPhase.getD s.cadence.activePhase) 0) ∧
        (s.cadence.frameSlots ≤ i + 1 → s.cadence.activeSource = .external →
          t.cadence = { s.cadence with slotIndex := none, slotEnd := none } ∧
          ∀ ch : ChanId, (t.chan ch).budget = 0)) ∧
    (s.resetAsserted = true → exec .beat s = .next s) ∧
    (s.resetAsserted = false → s.cadence.activeSource = .internal → s.settings.cadenceSource = .internal →
      exec .beat s = .next s) ∧
    (s.resetAsserted = false → s.cadence.activeSource = .external ∨ s.settings.cadenceSource = .external →
      ∃ t : State, exec .beat s = .next t ∧ s.FrameBegun t ∧ t.cadence.activeSource = .external ∧
        t.cadence.watchdogRef = some s.now ∧ t.now = s.now ∧ t.settings = s.settings) ∧
    (∀ r : Nat, s.cadence.watchdogRef = some r →
      (∀ e, s.cadence.slotEnd = some e → r + s.settings.cadenceTimeout ≤ e) →
      ∃ t : State, exec .watchdogExpiry s = .next t ∧ s.FrameBegun t ∧ t.cadence.activeSource = .internal ∧
        t.cadence.watchdogRef = none ∧ hasCause t.causes .cadenceLost = true ∧
        t.settings.cadenceSource = s.settings.cadenceSource ∧
        t.now = max s.now (r + s.settings.cadenceTimeout))

/-- A slot start sets every channel's budget: 0 when the channel's queue holds YIELD_LEVEL requests or more, the profile's ops
when the slot is open, 0 otherwise; it sets the slot index and the slot end (R125, R134, R135). -/
def Obligations.SlotStartSetsBudgets : Prop :=
  ∀ (s : State) (slot : Nat),
    (s.slotStart slot).cadence = { s.cadence with
      slotIndex := some slot, slotEnd := some (s.now + s.settings.slotLen) } ∧
    ∀ ch : ChanId,
      ((s.slotStart slot).chan ch).budget = s.budgetOf ch s.cadence.activePhase slot ∧
      ((s.slotStart slot).chan ch).queue = (s.chan ch).queue ∧
      ((s.chan ch).patrol.startWait = true → s.budgetOf ch s.cadence.activePhase slot = 0 →
        ((s.slotStart slot).chan ch).patrol = (s.chan ch).patrol) ∧
      ((s.chan ch).patrol.startWait = true → 1 ≤ s.budgetOf ch s.cadence.activePhase slot →
        ∀ l : Nat, l < (s.chan ch).visible → s.classOf ch l ≠ .unscrubbed →
        (∀ k : Nat, k < l → s.classOf ch k = .unscrubbed) →
        ((s.slotStart slot).chan ch).patrol = { (s.chan ch).patrol with startWait := false, position := l })

/-! ### The power-on reset -/

/-- RESET discards all work and state but what DRAM holds, and releases ALERT; at its end every item has its power-on value,
each channel 32 credits, and the first frame begins under CLOSED (R201, R202, R203, R124). The model's readings: every item
has its power-on value from the assertion on (log entry 8), RESET_END without RESET is nothing (log entry 4), and the outputs
are empty after the reset (log entry 22). The power-on values, item by item: the windows (R61), the class policies (R63), the
channels (R72, R78, R91, R95, R140, R146, R167, R172), the Patrol Engines (R99), the Cadence Unit (R124), the phase profiles
(R133), the link (R184, R186) and the settings (R194). -/
def Obligations.ResetRestoresPowerOn : Prop :=
  (∀ ch : ChanId, State.reset.chan ch = Channel.powerOn [] 8) ∧
  (∀ (dram : List (Nat × Codeword)) (budget : Nat) (c : Channel), c = Channel.powerOn dram budget →
    c.state = .disabled ∧ c.physLines = 0 ∧ c.fillProgress = 0 ∧ c.credits = 32 ∧ c.queue = [] ∧ c.nextSeq = 0 ∧
    c.response = none ∧ c.owed = [] ∧ c.flights = [] ∧ c.wbq = [] ∧ c.demandCount = 0 ∧ c.budget = budget ∧
    (∀ i : SlotId, c.slots.get i = .free) ∧ c.migration = none ∧ c.exhausted = false ∧ c.capture = none ∧
    c.ceCount = 0 ∧ c.ueCount = 0 ∧ c.dram = dram ∧
    c.patrol = { state := .idle, mode := .continuous, position := 0, pass := 0, focusCursor := none, focusCount := 0
                 current := none, held := [], startWait := false }) ∧
  (∀ i : Fin 8, State.reset.windows.get i =
    { enabled := false, channels := 0, first := 0, last := 0, cls := .standard }) ∧
  (State.reset.policy .critical = { tHot := 48, tSpare := 160, autoSpare := true, demandWb := true } ∧
    State.reset.policy .standard = { tHot := 64, tSpare := 256, autoSpare := true, demandWb := true } ∧
    State.reset.policy .bulk = { tHot := 96, tSpare := 384, autoSpare := false, demandWb := true } ∧
    State.reset.policy .unscrubbed = { tHot := 96, tSpare := 384, autoSpare := false, demandWb := false }) ∧
  (State.reset.profile .closed = { mask := 0xFFFFFFFF, ops := 8 } ∧
    State.reset.profile .preopen = { mask := 0xFFFFFFFF, ops := 4 } ∧
    State.reset.profile .auction = { mask := 0, ops := 0 } ∧
    State.reset.profile .continuous = { mask := 0xF0, ops := 2 }) ∧
  State.reset.settings = { wCe := 16, wRepeat := 48, decayShift := 3, focusInterval := 8, cadenceSource := .internal
                           slotLen := 100, slotCount := 8, cadenceTimeout := 10000, yieldLevel := 24
                           alertMask := Cause.passDone.single ||| Cause.migrationDone.single, linkErrorLimit := 4 } ∧
  State.reset.cadence = { activeSource := .internal, frameSlots := 8, slotIndex := some 0
                          slotEnd := some (State.reset.now + 100), activePhase := .closed, pendingPhase := none
                          watchdogRef := none } ∧
  State.reset.response = { code := 0, result := .ok, summary := 0, payload := 0 } ∧ State.reset.linkErrors = 0 ∧
  State.reset.table = [] ∧ State.reset.causes = 0 ∧ State.reset.shift = .empty ∧ State.reset.sdo = [] ∧
  State.reset.resetAsserted = false ∧ State.reset.pending = [] ∧
  ∀ s : State, ∃ t : State, exec .resetAssert s = .next t ∧ t.resetAsserted = true ∧ t.alertLine = false ∧
    t.table = [] ∧ t.causes = 0 ∧ t.now = s.now ∧
    (∀ ch : ChanId, t.chan ch = { Channel.powerOn (s.chan ch).dram 0 with dram := (s.chan ch).dram }) ∧
    (s.resetAsserted = false → ∀ csLow, exec (.resetEnd csLow) s = .next s) ∧
    (s.resetAsserted = true → ∀ csLow, ∃ u : State, exec (.resetEnd csLow) s = .next u ∧ u.resetAsserted = false ∧
      u.shift = (if csLow then .ignoring else .empty) ∧
      u = { State.reset with
        chans := u.chans, shift := u.shift, now := s.now, pending := s.pending
        cadence := { State.reset.cadence with slotEnd := some (s.now + 100) } } ∧
      ∀ ch : ChanId, u.chan ch = { State.reset.chan ch with dram := (s.chan ch).dram })

/-! ### Invariants that every step keeps -/

/-- The state after reset is sound in every respect. -/
def Obligations.ResetStateIsSound : Prop :=
  State.reset.SparingSound ∧ State.reset.CreditsSound ∧ State.reset.WbqsSound ∧ State.reset.PatrolsSound ∧
    State.reset.NumbersSound ∧ State.reset.CadenceSound ∧ State.reset.DramSound ∧ State.reset.PhaseSound

/-- Every step keeps the table in key order without a key twice, at most 1,024 records long, and every score, repeat and age in
its range (R15, R17, R53). -/
def Obligations.StepsKeepTableSound : Prop := KeptByStep State.TableSound

/-- Every step keeps the records, the Spare Pool and the Migration Units in agreement: a slot is ALLOCATED exactly when one
record names it, each record has the fields of its state, and a Migration Unit works on its channel's one SPARING record
(R16, R17, R29). -/
def Obligations.StepsKeepSparePoolAndRecordsAgreeing : Prop := KeptByStep State.SparingSound

/-- Every step keeps each channel's requests and credits at 32 together, each Write-back Queue at most four entries long with
no two for one location and codeword, and DRAM's image in its canonical form (R78, R91). -/
def Obligations.StepsKeepDemandPathSound : Prop :=
  KeptByStep State.CreditsSound ∧ KeptByStep State.WbqsSound ∧ KeptByStep State.DramSound

/-- Every step keeps what R100, R101, R107 and R123 say of the Patrol Engines. -/
def Obligations.StepsKeepPatrolsSound : Prop := KeptByStep State.PatrolsSound

/-- Every step keeps the Cadence Unit as R124 to R126 say, a pending phase other than the active one (R132), and every setting,
policy, count and budget in its range. -/
def Obligations.StepsKeepCadenceAndNumbersSound : Prop :=
  KeptByStep State.CadenceSound ∧ KeptByStep State.PhaseSound ∧ KeptByStep State.NumbersSound
end

