-- ==== Sys2Proof/Laws/State.lean ====
section
/-! SUPPORT. One lemma per field for each update of the state and of a channel, so that no proof unfolds an update. -/

namespace Sys2Proof.Machine

/-! ### Raising a cause -/

section
variable (s : State) (k : Cause)

@[simp] theorem State.raise_table : (s.raise k).table = s.table := rfl
@[simp] theorem State.raise_windows : (s.raise k).windows = s.windows := rfl
@[simp] theorem State.raise_policies : (s.raise k).policies = s.policies := rfl
@[simp] theorem State.raise_settings : (s.raise k).settings = s.settings := rfl
@[simp] theorem State.raise_chans : (s.raise k).chans = s.chans := rfl
@[simp] theorem State.raise_cadence : (s.raise k).cadence = s.cadence := rfl
@[simp] theorem State.raise_profiles : (s.raise k).profiles = s.profiles := rfl
@[simp] theorem State.raise_response : (s.raise k).response = s.response := rfl
@[simp] theorem State.raise_linkErrors : (s.raise k).linkErrors = s.linkErrors := rfl
@[simp] theorem State.raise_shift : (s.raise k).shift = s.shift := rfl
@[simp] theorem State.raise_sdo : (s.raise k).sdo = s.sdo := rfl
@[simp] theorem State.raise_resetAsserted : (s.raise k).resetAsserted = s.resetAsserted := rfl
@[simp] theorem State.raise_now : (s.raise k).now = s.now := rfl
@[simp] theorem State.raise_pending : (s.raise k).pending = s.pending := rfl
@[simp] theorem State.raise_causes : (s.raise k).causes = s.causes ||| k.single := rfl

end

/-! ### Changing one channel -/

section
variable (s : State) (ch : ChanId) (f : Channel → Channel)

@[simp] theorem State.modChan_table : (s.modChan ch f).table = s.table := rfl
@[simp] theorem State.modChan_windows : (s.modChan ch f).windows = s.windows := rfl
@[simp] theorem State.modChan_policies : (s.modChan ch f).policies = s.policies := rfl
@[simp] theorem State.modChan_settings : (s.modChan ch f).settings = s.settings := rfl
@[simp] theorem State.modChan_cadence : (s.modChan ch f).cadence = s.cadence := rfl
@[simp] theorem State.modChan_profiles : (s.modChan ch f).profiles = s.profiles := rfl
@[simp] theorem State.modChan_causes : (s.modChan ch f).causes = s.causes := rfl
@[simp] theorem State.modChan_response : (s.modChan ch f).response = s.response := rfl
@[simp] theorem State.modChan_linkErrors : (s.modChan ch f).linkErrors = s.linkErrors := rfl
@[simp] theorem State.modChan_shift : (s.modChan ch f).shift = s.shift := rfl
@[simp] theorem State.modChan_sdo : (s.modChan ch f).sdo = s.sdo := rfl
@[simp] theorem State.modChan_resetAsserted : (s.modChan ch f).resetAsserted = s.resetAsserted := rfl
@[simp] theorem State.modChan_now : (s.modChan ch f).now = s.now := rfl
@[simp] theorem State.modChan_pending : (s.modChan ch f).pending = s.pending := rfl
@[simp] theorem State.modChan_chans : (s.modChan ch f).chans = s.chans.set ch.val (f (s.chan ch)) := rfl

end

/-! ### Changing every channel -/

section
variable (s : State) (f : Channel → Channel)

@[simp] theorem State.modAllChans_table : (s.modAllChans f).table = s.table := rfl
@[simp] theorem State.modAllChans_windows : (s.modAllChans f).windows = s.windows := rfl
@[simp] theorem State.modAllChans_policies : (s.modAllChans f).policies = s.policies := rfl
@[simp] theorem State.modAllChans_settings : (s.modAllChans f).settings = s.settings := rfl
@[simp] theorem State.modAllChans_cadence : (s.modAllChans f).cadence = s.cadence := rfl
@[simp] theorem State.modAllChans_profiles : (s.modAllChans f).profiles = s.profiles := rfl
@[simp] theorem State.modAllChans_causes : (s.modAllChans f).causes = s.causes := rfl
@[simp] theorem State.modAllChans_response : (s.modAllChans f).response = s.response := rfl
@[simp] theorem State.modAllChans_linkErrors : (s.modAllChans f).linkErrors = s.linkErrors := rfl
@[simp] theorem State.modAllChans_shift : (s.modAllChans f).shift = s.shift := rfl
@[simp] theorem State.modAllChans_sdo : (s.modAllChans f).sdo = s.sdo := rfl
@[simp] theorem State.modAllChans_resetAsserted : (s.modAllChans f).resetAsserted = s.resetAsserted := rfl
@[simp] theorem State.modAllChans_now : (s.modAllChans f).now = s.now := rfl
@[simp] theorem State.modAllChans_pending : (s.modAllChans f).pending = s.pending := rfl
@[simp] theorem State.modAllChans_chans : (s.modAllChans f).chans = s.chans.map f := rfl

end

/-! ### Changing a record -/

section
variable (s : State) (ch : ChanId) (n : Nat) (f : Record → Record)

@[simp] theorem State.modRec_windows : (s.modRec ch n f).windows = s.windows := rfl
@[simp] theorem State.modRec_policies : (s.modRec ch n f).policies = s.policies := rfl
@[simp] theorem State.modRec_settings : (s.modRec ch n f).settings = s.settings := rfl
@[simp] theorem State.modRec_chans : (s.modRec ch n f).chans = s.chans := rfl
@[simp] theorem State.modRec_cadence : (s.modRec ch n f).cadence = s.cadence := rfl
@[simp] theorem State.modRec_profiles : (s.modRec ch n f).profiles = s.profiles := rfl
@[simp] theorem State.modRec_causes : (s.modRec ch n f).causes = s.causes := rfl
@[simp] theorem State.modRec_response : (s.modRec ch n f).response = s.response := rfl
@[simp] theorem State.modRec_linkErrors : (s.modRec ch n f).linkErrors = s.linkErrors := rfl
@[simp] theorem State.modRec_shift : (s.modRec ch n f).shift = s.shift := rfl
@[simp] theorem State.modRec_sdo : (s.modRec ch n f).sdo = s.sdo := rfl
@[simp] theorem State.modRec_resetAsserted : (s.modRec ch n f).resetAsserted = s.resetAsserted := rfl
@[simp] theorem State.modRec_now : (s.modRec ch n f).now = s.now := rfl
@[simp] theorem State.modRec_pending : (s.modRec ch n f).pending = s.pending := rfl
@[simp] theorem State.modRec_table : (s.modRec ch n f).table = updateRec s.table { channel := ch, line := n } f := rfl

end

/-! ### Changing the settings -/

section
variable (s : State) (f : Settings → Settings)

@[simp] theorem State.modSettings_table : (s.modSettings f).table = s.table := rfl
@[simp] theorem State.modSettings_windows : (s.modSettings f).windows = s.windows := rfl
@[simp] theorem State.modSettings_policies : (s.modSettings f).policies = s.policies := rfl
@[simp] theorem State.modSettings_chans : (s.modSettings f).chans = s.chans := rfl
@[simp] theorem State.modSettings_cadence : (s.modSettings f).cadence = s.cadence := rfl
@[simp] theorem State.modSettings_profiles : (s.modSettings f).profiles = s.profiles := rfl
@[simp] theorem State.modSettings_causes : (s.modSettings f).causes = s.causes := rfl
@[simp] theorem State.modSettings_response : (s.modSettings f).response = s.response := rfl
@[simp] theorem State.modSettings_linkErrors : (s.modSettings f).linkErrors = s.linkErrors := rfl
@[simp] theorem State.modSettings_shift : (s.modSettings f).shift = s.shift := rfl
@[simp] theorem State.modSettings_sdo : (s.modSettings f).sdo = s.sdo := rfl
@[simp] theorem State.modSettings_resetAsserted : (s.modSettings f).resetAsserted = s.resetAsserted := rfl
@[simp] theorem State.modSettings_now : (s.modSettings f).now = s.now := rfl
@[simp] theorem State.modSettings_pending : (s.modSettings f).pending = s.pending := rfl
@[simp] theorem State.modSettings_settings : (s.modSettings f).settings = f s.settings := rfl

end

/-! ### The moment -/

section
variable (s : State) (t : Nat)

@[simp] theorem State.passTo_table : (s.passTo t).table = s.table := rfl
@[simp] theorem State.passTo_windows : (s.passTo t).windows = s.windows := rfl
@[simp] theorem State.passTo_policies : (s.passTo t).policies = s.policies := rfl
@[simp] theorem State.passTo_settings : (s.passTo t).settings = s.settings := rfl
@[simp] theorem State.passTo_chans : (s.passTo t).chans = s.chans := rfl
@[simp] theorem State.passTo_cadence : (s.passTo t).cadence = s.cadence := rfl
@[simp] theorem State.passTo_profiles : (s.passTo t).profiles = s.profiles := rfl
@[simp] theorem State.passTo_causes : (s.passTo t).causes = s.causes := rfl
@[simp] theorem State.passTo_response : (s.passTo t).response = s.response := rfl
@[simp] theorem State.passTo_linkErrors : (s.passTo t).linkErrors = s.linkErrors := rfl
@[simp] theorem State.passTo_shift : (s.passTo t).shift = s.shift := rfl
@[simp] theorem State.passTo_sdo : (s.passTo t).sdo = s.sdo := rfl
@[simp] theorem State.passTo_resetAsserted : (s.passTo t).resetAsserted = s.resetAsserted := rfl
@[simp] theorem State.passTo_pending : (s.passTo t).pending = s.pending := rfl
@[simp] theorem State.passTo_now : (s.passTo t).now = max s.now t := rfl

end

/-! ### A window -/

section
variable (s : State) (i : Fin 8) (x : Window)

@[simp] theorem State.setWindow_table : (s.setWindow i x).table = s.table := rfl
@[simp] theorem State.setWindow_policies : (s.setWindow i x).policies = s.policies := rfl
@[simp] theorem State.setWindow_settings : (s.setWindow i x).settings = s.settings := rfl
@[simp] theorem State.setWindow_chans : (s.setWindow i x).chans = s.chans := rfl
@[simp] theorem State.setWindow_cadence : (s.setWindow i x).cadence = s.cadence := rfl
@[simp] theorem State.setWindow_profiles : (s.setWindow i x).profiles = s.profiles := rfl
@[simp] theorem State.setWindow_causes : (s.setWindow i x).causes = s.causes := rfl
@[simp] theorem State.setWindow_response : (s.setWindow i x).response = s.response := rfl
@[simp] theorem State.setWindow_linkErrors : (s.setWindow i x).linkErrors = s.linkErrors := rfl
@[simp] theorem State.setWindow_shift : (s.setWindow i x).shift = s.shift := rfl
@[simp] theorem State.setWindow_sdo : (s.setWindow i x).sdo = s.sdo := rfl
@[simp] theorem State.setWindow_resetAsserted : (s.setWindow i x).resetAsserted = s.resetAsserted := rfl
@[simp] theorem State.setWindow_now : (s.setWindow i x).now = s.now := rfl
@[simp] theorem State.setWindow_pending : (s.setWindow i x).pending = s.pending := rfl
@[simp] theorem State.setWindow_windows : (s.setWindow i x).windows = s.windows.set i.val x := rfl

end

/-! ### A policy -/

section
variable (s : State) (k : MemClass) (p : Policy)

@[simp] theorem State.setPolicy_table : (s.setPolicy k p).table = s.table := rfl
@[simp] theorem State.setPolicy_windows : (s.setPolicy k p).windows = s.windows := rfl
@[simp] theorem State.setPolicy_settings : (s.setPolicy k p).settings = s.settings := rfl
@[simp] theorem State.setPolicy_chans : (s.setPolicy k p).chans = s.chans := rfl
@[simp] theorem State.setPolicy_cadence : (s.setPolicy k p).cadence = s.cadence := rfl
@[simp] theorem State.setPolicy_profiles : (s.setPolicy k p).profiles = s.profiles := rfl
@[simp] theorem State.setPolicy_causes : (s.setPolicy k p).causes = s.causes := rfl
@[simp] theorem State.setPolicy_response : (s.setPolicy k p).response = s.response := rfl
@[simp] theorem State.setPolicy_linkErrors : (s.setPolicy k p).linkErrors = s.linkErrors := rfl
@[simp] theorem State.setPolicy_shift : (s.setPolicy k p).shift = s.shift := rfl
@[simp] theorem State.setPolicy_sdo : (s.setPolicy k p).sdo = s.sdo := rfl
@[simp] theorem State.setPolicy_resetAsserted : (s.setPolicy k p).resetAsserted = s.resetAsserted := rfl
@[simp] theorem State.setPolicy_now : (s.setPolicy k p).now = s.now := rfl
@[simp] theorem State.setPolicy_pending : (s.setPolicy k p).pending = s.pending := rfl
@[simp] theorem State.setPolicy_policies : (s.setPolicy k p).policies = s.policies.set k.code.val p := rfl

end

/-! ### A profile -/

section
variable (s : State) (p : Phase) (f : Profile)

@[simp] theorem State.setProfile_table : (s.setProfile p f).table = s.table := rfl
@[simp] theorem State.setProfile_windows : (s.setProfile p f).windows = s.windows := rfl
@[simp] theorem State.setProfile_policies : (s.setProfile p f).policies = s.policies := rfl
@[simp] theorem State.setProfile_settings : (s.setProfile p f).settings = s.settings := rfl
@[simp] theorem State.setProfile_chans : (s.setProfile p f).chans = s.chans := rfl
@[simp] theorem State.setProfile_cadence : (s.setProfile p f).cadence = s.cadence := rfl
@[simp] theorem State.setProfile_causes : (s.setProfile p f).causes = s.causes := rfl
@[simp] theorem State.setProfile_response : (s.setProfile p f).response = s.response := rfl
@[simp] theorem State.setProfile_linkErrors : (s.setProfile p f).linkErrors = s.linkErrors := rfl
@[simp] theorem State.setProfile_shift : (s.setProfile p f).shift = s.shift := rfl
@[simp] theorem State.setProfile_sdo : (s.setProfile p f).sdo = s.sdo := rfl
@[simp] theorem State.setProfile_resetAsserted : (s.setProfile p f).resetAsserted = s.resetAsserted := rfl
@[simp] theorem State.setProfile_now : (s.setProfile p f).now = s.now := rfl
@[simp] theorem State.setProfile_pending : (s.setProfile p f).pending = s.pending := rfl
@[simp] theorem State.setProfile_profiles : (s.setProfile p f).profiles = s.profiles.set p.code.val f := rfl

end

/-! ### Decay -/

section
variable (s : State) (ch : ChanId)

@[simp] theorem State.decay_windows : (s.decay ch).windows = s.windows := rfl
@[simp] theorem State.decay_policies : (s.decay ch).policies = s.policies := rfl
@[simp] theorem State.decay_settings : (s.decay ch).settings = s.settings := rfl
@[simp] theorem State.decay_chans : (s.decay ch).chans = s.chans := rfl
@[simp] theorem State.decay_cadence : (s.decay ch).cadence = s.cadence := rfl
@[simp] theorem State.decay_profiles : (s.decay ch).profiles = s.profiles := rfl
@[simp] theorem State.decay_causes : (s.decay ch).causes = s.causes := rfl
@[simp] theorem State.decay_response : (s.decay ch).response = s.response := rfl
@[simp] theorem State.decay_linkErrors : (s.decay ch).linkErrors = s.linkErrors := rfl
@[simp] theorem State.decay_shift : (s.decay ch).shift = s.shift := rfl
@[simp] theorem State.decay_sdo : (s.decay ch).sdo = s.sdo := rfl
@[simp] theorem State.decay_resetAsserted : (s.decay ch).resetAsserted = s.resetAsserted := rfl
@[simp] theorem State.decay_now : (s.decay ch).now = s.now := rfl
@[simp] theorem State.decay_pending : (s.decay ch).pending = s.pending := rfl

end

/-! ### A response -/

section
variable (s : State) (t : State) (e : Nat) (k : Byte) (r : Result) (p : BitVec 160)

@[simp] theorem State.withAnswer_table : (s.withAnswer t e k r p).table = s.table := rfl
@[simp] theorem State.withAnswer_windows : (s.withAnswer t e k r p).windows = s.windows := rfl
@[simp] theorem State.withAnswer_policies : (s.withAnswer t e k r p).policies = s.policies := rfl
@[simp] theorem State.withAnswer_settings : (s.withAnswer t e k r p).settings = s.settings := rfl
@[simp] theorem State.withAnswer_chans : (s.withAnswer t e k r p).chans = s.chans := rfl
@[simp] theorem State.withAnswer_cadence : (s.withAnswer t e k r p).cadence = s.cadence := rfl
@[simp] theorem State.withAnswer_profiles : (s.withAnswer t e k r p).profiles = s.profiles := rfl
@[simp] theorem State.withAnswer_causes : (s.withAnswer t e k r p).causes = s.causes := rfl
@[simp] theorem State.withAnswer_shift : (s.withAnswer t e k r p).shift = s.shift := rfl
@[simp] theorem State.withAnswer_resetAsserted : (s.withAnswer t e k r p).resetAsserted = s.resetAsserted := rfl
@[simp] theorem State.withAnswer_now : (s.withAnswer t e k r p).now = s.now := rfl
@[simp] theorem State.withAnswer_pending : (s.withAnswer t e k r p).pending = s.pending := rfl
@[simp] theorem State.withAnswer_linkErrors : (s.withAnswer t e k r p).linkErrors = 0 := rfl
@[simp] theorem State.withAnswer_sdo : (s.withAnswer t e k r p).sdo = sdoBits t.response (192 + e) := rfl

end

/-! ### A channel's budget -/

section
variable (c : Channel) (n : Nat)

@[simp] theorem Channel.withBudget_state : (c.withBudget n).state = c.state := rfl
@[simp] theorem Channel.withBudget_physLines : (c.withBudget n).physLines = c.physLines := rfl
@[simp] theorem Channel.withBudget_fillProgress : (c.withBudget n).fillProgress = c.fillProgress := rfl
@[simp] theorem Channel.withBudget_credits : (c.withBudget n).credits = c.credits := rfl
@[simp] theorem Channel.withBudget_queue : (c.withBudget n).queue = c.queue := rfl
@[simp] theorem Channel.withBudget_nextSeq : (c.withBudget n).nextSeq = c.nextSeq := rfl
@[simp] theorem Channel.withBudget_response : (c.withBudget n).response = c.response := rfl
@[simp] theorem Channel.withBudget_owed : (c.withBudget n).owed = c.owed := rfl
@[simp] theorem Channel.withBudget_flights : (c.withBudget n).flights = c.flights := rfl
@[simp] theorem Channel.withBudget_wbq : (c.withBudget n).wbq = c.wbq := rfl
@[simp] theorem Channel.withBudget_demandCount : (c.withBudget n).demandCount = c.demandCount := rfl
@[simp] theorem Channel.withBudget_patrol : (c.withBudget n).patrol = c.patrol := rfl
@[simp] theorem Channel.withBudget_slots : (c.withBudget n).slots = c.slots := rfl
@[simp] theorem Channel.withBudget_migration : (c.withBudget n).migration = c.migration := rfl
@[simp] theorem Channel.withBudget_exhausted : (c.withBudget n).exhausted = c.exhausted := rfl
@[simp] theorem Channel.withBudget_capture : (c.withBudget n).capture = c.capture := rfl
@[simp] theorem Channel.withBudget_ceCount : (c.withBudget n).ceCount = c.ceCount := rfl
@[simp] theorem Channel.withBudget_ueCount : (c.withBudget n).ueCount = c.ueCount := rfl
@[simp] theorem Channel.withBudget_dram : (c.withBudget n).dram = c.dram := rfl
@[simp] theorem Channel.withBudget_budget : (c.withBudget n).budget = n := rfl

end

/-! ### A channel's Patrol Engine -/

section
variable (c : Channel) (f : PatrolEngine → PatrolEngine)

@[simp] theorem Channel.modPatrol_state : (c.modPatrol f).state = c.state := rfl
@[simp] theorem Channel.modPatrol_physLines : (c.modPatrol f).physLines = c.physLines := rfl
@[simp] theorem Channel.modPatrol_fillProgress : (c.modPatrol f).fillProgress = c.fillProgress := rfl
@[simp] theorem Channel.modPatrol_credits : (c.modPatrol f).credits = c.credits := rfl
@[simp] theorem Channel.modPatrol_queue : (c.modPatrol f).queue = c.queue := rfl
@[simp] theorem Channel.modPatrol_nextSeq : (c.modPatrol f).nextSeq = c.nextSeq := rfl
@[simp] theorem Channel.modPatrol_response : (c.modPatrol f).response = c.response := rfl
@[simp] theorem Channel.modPatrol_owed : (c.modPatrol f).owed = c.owed := rfl
@[simp] theorem Channel.modPatrol_flights : (c.modPatrol f).flights = c.flights := rfl
@[simp] theorem Channel.modPatrol_wbq : (c.modPatrol f).wbq = c.wbq := rfl
@[simp] theorem Channel.modPatrol_demandCount : (c.modPatrol f).demandCount = c.demandCount := rfl
@[simp] theorem Channel.modPatrol_budget : (c.modPatrol f).budget = c.budget := rfl
@[simp] theorem Channel.modPatrol_slots : (c.modPatrol f).slots = c.slots := rfl
@[simp] theorem Channel.modPatrol_migration : (c.modPatrol f).migration = c.migration := rfl
@[simp] theorem Channel.modPatrol_exhausted : (c.modPatrol f).exhausted = c.exhausted := rfl
@[simp] theorem Channel.modPatrol_capture : (c.modPatrol f).capture = c.capture := rfl
@[simp] theorem Channel.modPatrol_ceCount : (c.modPatrol f).ceCount = c.ceCount := rfl
@[simp] theorem Channel.modPatrol_ueCount : (c.modPatrol f).ueCount = c.ueCount := rfl
@[simp] theorem Channel.modPatrol_dram : (c.modPatrol f).dram = c.dram := rfl
@[simp] theorem Channel.modPatrol_patrol : (c.modPatrol f).patrol = f c.patrol := rfl

end

/-! ### The read that leaves at its decode -/

section
variable (c : Channel)

@[simp] theorem Channel.popFlight_state : (c.popFlight).state = c.state := rfl
@[simp] theorem Channel.popFlight_physLines : (c.popFlight).physLines = c.physLines := rfl
@[simp] theorem Channel.popFlight_fillProgress : (c.popFlight).fillProgress = c.fillProgress := rfl
@[simp] theorem Channel.popFlight_credits : (c.popFlight).credits = c.credits := rfl
@[simp] theorem Channel.popFlight_queue : (c.popFlight).queue = c.queue := rfl
@[simp] theorem Channel.popFlight_nextSeq : (c.popFlight).nextSeq = c.nextSeq := rfl
@[simp] theorem Channel.popFlight_response : (c.popFlight).response = c.response := rfl
@[simp] theorem Channel.popFlight_owed : (c.popFlight).owed = c.owed := rfl
@[simp] theorem Channel.popFlight_wbq : (c.popFlight).wbq = c.wbq := rfl
@[simp] theorem Channel.popFlight_demandCount : (c.popFlight).demandCount = c.demandCount := rfl
@[simp] theorem Channel.popFlight_budget : (c.popFlight).budget = c.budget := rfl
@[simp] theorem Channel.popFlight_patrol : (c.popFlight).patrol = c.patrol := rfl
@[simp] theorem Channel.popFlight_slots : (c.popFlight).slots = c.slots := rfl
@[simp] theorem Channel.popFlight_migration : (c.popFlight).migration = c.migration := rfl
@[simp] theorem Channel.popFlight_exhausted : (c.popFlight).exhausted = c.exhausted := rfl
@[simp] theorem Channel.popFlight_capture : (c.popFlight).capture = c.capture := rfl
@[simp] theorem Channel.popFlight_ceCount : (c.popFlight).ceCount = c.ceCount := rfl
@[simp] theorem Channel.popFlight_ueCount : (c.popFlight).ueCount = c.ueCount := rfl
@[simp] theorem Channel.popFlight_dram : (c.popFlight).dram = c.dram := rfl
@[simp] theorem Channel.popFlight_flights : (c.popFlight).flights = c.flights.tail := rfl

end

/-! ### A read's issue -/

section
variable (c : Channel) (ch : ChanId) (k : FlightKind) (n : Nat) (l : Loc)

@[simp] theorem Channel.issueRead_state : (c.issueRead ch k n l).state = c.state := rfl
@[simp] theorem Channel.issueRead_physLines : (c.issueRead ch k n l).physLines = c.physLines := rfl
@[simp] theorem Channel.issueRead_fillProgress : (c.issueRead ch k n l).fillProgress = c.fillProgress := rfl
@[simp] theorem Channel.issueRead_credits : (c.issueRead ch k n l).credits = c.credits := rfl
@[simp] theorem Channel.issueRead_queue : (c.issueRead ch k n l).queue = c.queue := rfl
@[simp] theorem Channel.issueRead_nextSeq : (c.issueRead ch k n l).nextSeq = c.nextSeq := rfl
@[simp] theorem Channel.issueRead_response : (c.issueRead ch k n l).response = c.response := rfl
@[simp] theorem Channel.issueRead_owed : (c.issueRead ch k n l).owed = c.owed := rfl
@[simp] theorem Channel.issueRead_wbq : (c.issueRead ch k n l).wbq = c.wbq := rfl
@[simp] theorem Channel.issueRead_demandCount : (c.issueRead ch k n l).demandCount = c.demandCount := rfl
@[simp] theorem Channel.issueRead_budget : (c.issueRead ch k n l).budget = c.budget := rfl
@[simp] theorem Channel.issueRead_patrol : (c.issueRead ch k n l).patrol = c.patrol := rfl
@[simp] theorem Channel.issueRead_slots : (c.issueRead ch k n l).slots = c.slots := rfl
@[simp] theorem Channel.issueRead_migration : (c.issueRead ch k n l).migration = c.migration := rfl
@[simp] theorem Channel.issueRead_exhausted : (c.issueRead ch k n l).exhausted = c.exhausted := rfl
@[simp] theorem Channel.issueRead_capture : (c.issueRead ch k n l).capture = c.capture := rfl
@[simp] theorem Channel.issueRead_ceCount : (c.issueRead ch k n l).ceCount = c.ceCount := rfl
@[simp] theorem Channel.issueRead_ueCount : (c.issueRead ch k n l).ueCount = c.ueCount := rfl
@[simp] theorem Channel.issueRead_dram : (c.issueRead ch k n l).dram = c.dram := rfl
@[simp] theorem Channel.issueRead_flights :
    (c.issueRead ch k n l).flights = c.flights ++ [{ kind := k, line := n, loc := l, words := c.lineAt ch l, moved := false }] := rfl

end

/-! ### A request's stage -/

section
variable (c : Channel) (n : Nat) (x : Stage)

@[simp] theorem Channel.setStage_state : (c.setStage n x).state = c.state := rfl
@[simp] theorem Channel.setStage_physLines : (c.setStage n x).physLines = c.physLines := rfl
@[simp] theorem Channel.setStage_fillProgress : (c.setStage n x).fillProgress = c.fillProgress := rfl
@[simp] theorem Channel.setStage_credits : (c.setStage n x).credits = c.credits := rfl
@[simp] theorem Channel.setStage_nextSeq : (c.setStage n x).nextSeq = c.nextSeq := rfl
@[simp] theorem Channel.setStage_response : (c.setStage n x).response = c.response := rfl
@[simp] theorem Channel.setStage_owed : (c.setStage n x).owed = c.owed := rfl
@[simp] theorem Channel.setStage_flights : (c.setStage n x).flights = c.flights := rfl
@[simp] theorem Channel.setStage_wbq : (c.setStage n x).wbq = c.wbq := rfl
@[simp] theorem Channel.setStage_demandCount : (c.setStage n x).demandCount = c.demandCount := rfl
@[simp] theorem Channel.setStage_budget : (c.setStage n x).budget = c.budget := rfl
@[simp] theorem Channel.setStage_patrol : (c.setStage n x).patrol = c.patrol := rfl
@[simp] theorem Channel.setStage_slots : (c.setStage n x).slots = c.slots := rfl
@[simp] theorem Channel.setStage_migration : (c.setStage n x).migration = c.migration := rfl
@[simp] theorem Channel.setStage_exhausted : (c.setStage n x).exhausted = c.exhausted := rfl
@[simp] theorem Channel.setStage_capture : (c.setStage n x).capture = c.capture := rfl
@[simp] theorem Channel.setStage_ceCount : (c.setStage n x).ceCount = c.ceCount := rfl
@[simp] theorem Channel.setStage_ueCount : (c.setStage n x).ueCount = c.ueCount := rfl
@[simp] theorem Channel.setStage_dram : (c.setStage n x).dram = c.dram := rfl
@[simp] theorem Channel.setStage_queue :
    (c.setStage n x).queue = c.queue.map (fun q => if q.seq = n then { q with stage := x } else q) := rfl

end

/-! ### The consecutive-demand count -/

section
variable (c : Channel)

@[simp] theorem Channel.clearDemand_state : (c.clearDemand).state = c.state := rfl
@[simp] theorem Channel.clearDemand_physLines : (c.clearDemand).physLines = c.physLines := rfl
@[simp] theorem Channel.clearDemand_fillProgress : (c.clearDemand).fillProgress = c.fillProgress := rfl
@[simp] theorem Channel.clearDemand_credits : (c.clearDemand).credits = c.credits := rfl
@[simp] theorem Channel.clearDemand_queue : (c.clearDemand).queue = c.queue := rfl
@[simp] theorem Channel.clearDemand_nextSeq : (c.clearDemand).nextSeq = c.nextSeq := rfl
@[simp] theorem Channel.clearDemand_response : (c.clearDemand).response = c.response := rfl
@[simp] theorem Channel.clearDemand_owed : (c.clearDemand).owed = c.owed := rfl
@[simp] theorem Channel.clearDemand_flights : (c.clearDemand).flights = c.flights := rfl
@[simp] theorem Channel.clearDemand_wbq : (c.clearDemand).wbq = c.wbq := rfl
@[simp] theorem Channel.clearDemand_budget : (c.clearDemand).budget = c.budget := rfl
@[simp] theorem Channel.clearDemand_patrol : (c.clearDemand).patrol = c.patrol := rfl
@[simp] theorem Channel.clearDemand_slots : (c.clearDemand).slots = c.slots := rfl
@[simp] theorem Channel.clearDemand_migration : (c.clearDemand).migration = c.migration := rfl
@[simp] theorem Channel.clearDemand_exhausted : (c.clearDemand).exhausted = c.exhausted := rfl
@[simp] theorem Channel.clearDemand_capture : (c.clearDemand).capture = c.capture := rfl
@[simp] theorem Channel.clearDemand_ceCount : (c.clearDemand).ceCount = c.ceCount := rfl
@[simp] theorem Channel.clearDemand_ueCount : (c.clearDemand).ueCount = c.ueCount := rfl
@[simp] theorem Channel.clearDemand_dram : (c.clearDemand).dram = c.dram := rfl
@[simp] theorem Channel.clearDemand_demandCount : (c.clearDemand).demandCount = 0 := rfl

end

/-! ### A demand operation's count -/

section
variable (c : Channel)

@[simp] theorem Channel.countDemand_state : (c.countDemand).state = c.state := rfl
@[simp] theorem Channel.countDemand_physLines : (c.countDemand).physLines = c.physLines := rfl
@[simp] theorem Channel.countDemand_fillProgress : (c.countDemand).fillProgress = c.fillProgress := rfl
@[simp] theorem Channel.countDemand_credits : (c.countDemand).credits = c.credits := rfl
@[simp] theorem Channel.countDemand_queue : (c.countDemand).queue = c.queue := rfl
@[simp] theorem Channel.countDemand_nextSeq : (c.countDemand).nextSeq = c.nextSeq := rfl
@[simp] theorem Channel.countDemand_response : (c.countDemand).response = c.response := rfl
@[simp] theorem Channel.countDemand_owed : (c.countDemand).owed = c.owed := rfl
@[simp] theorem Channel.countDemand_flights : (c.countDemand).flights = c.flights := rfl
@[simp] theorem Channel.countDemand_wbq : (c.countDemand).wbq = c.wbq := rfl
@[simp] theorem Channel.countDemand_budget : (c.countDemand).budget = c.budget := rfl
@[simp] theorem Channel.countDemand_patrol : (c.countDemand).patrol = c.patrol := rfl
@[simp] theorem Channel.countDemand_slots : (c.countDemand).slots = c.slots := rfl
@[simp] theorem Channel.countDemand_migration : (c.countDemand).migration = c.migration := rfl
@[simp] theorem Channel.countDemand_exhausted : (c.countDemand).exhausted = c.exhausted := rfl
@[simp] theorem Channel.countDemand_capture : (c.countDemand).capture = c.capture := rfl
@[simp] theorem Channel.countDemand_ceCount : (c.countDemand).ceCount = c.ceCount := rfl
@[simp] theorem Channel.countDemand_ueCount : (c.countDemand).ueCount = c.ueCount := rfl
@[simp] theorem Channel.countDemand_dram : (c.countDemand).dram = c.dram := rfl
@[simp] theorem Channel.countDemand_demandCount :
    (c.countDemand).demandCount = if c.wbq.isEmpty then 0 else min 8 (c.demandCount + 1) := rfl

end

section
variable (c : Channel) (p : Probe)

@[simp] theorem Channel.countMergeWrite_state : (c.countMergeWrite p).state = c.state := rfl
@[simp] theorem Channel.countMergeWrite_physLines : (c.countMergeWrite p).physLines = c.physLines := rfl
@[simp] theorem Channel.countMergeWrite_fillProgress : (c.countMergeWrite p).fillProgress = c.fillProgress := rfl
@[simp] theorem Channel.countMergeWrite_credits : (c.countMergeWrite p).credits = c.credits := rfl
@[simp] theorem Channel.countMergeWrite_queue : (c.countMergeWrite p).queue = c.queue := rfl
@[simp] theorem Channel.countMergeWrite_nextSeq : (c.countMergeWrite p).nextSeq = c.nextSeq := rfl
@[simp] theorem Channel.countMergeWrite_response : (c.countMergeWrite p).response = c.response := rfl
@[simp] theorem Channel.countMergeWrite_owed : (c.countMergeWrite p).owed = c.owed := rfl
@[simp] theorem Channel.countMergeWrite_flights : (c.countMergeWrite p).flights = c.flights := rfl
@[simp] theorem Channel.countMergeWrite_wbq : (c.countMergeWrite p).wbq = c.wbq := rfl
@[simp] theorem Channel.countMergeWrite_budget : (c.countMergeWrite p).budget = c.budget := rfl
@[simp] theorem Channel.countMergeWrite_patrol : (c.countMergeWrite p).patrol = c.patrol := rfl
@[simp] theorem Channel.countMergeWrite_slots : (c.countMergeWrite p).slots = c.slots := rfl
@[simp] theorem Channel.countMergeWrite_migration : (c.countMergeWrite p).migration = c.migration := rfl
@[simp] theorem Channel.countMergeWrite_exhausted : (c.countMergeWrite p).exhausted = c.exhausted := rfl
@[simp] theorem Channel.countMergeWrite_capture : (c.countMergeWrite p).capture = c.capture := rfl
@[simp] theorem Channel.countMergeWrite_ceCount : (c.countMergeWrite p).ceCount = c.ceCount := rfl
@[simp] theorem Channel.countMergeWrite_ueCount : (c.countMergeWrite p).ueCount = c.ueCount := rfl
@[simp] theorem Channel.countMergeWrite_dram : (c.countMergeWrite p).dram = c.dram := rfl
@[simp] theorem Channel.countMergeWrite_demandCount : (c.countMergeWrite p).demandCount =
    if p.count = 7 then c.demandCount else if c.wbq.isEmpty then 0 else min 8 (c.demandCount + 1) := rfl

end

/-! ### A unit of budget -/

section
variable (c : Channel)

@[simp] theorem Channel.spend_state : (c.spend).state = c.state := rfl
@[simp] theorem Channel.spend_physLines : (c.spend).physLines = c.physLines := rfl
@[simp] theorem Channel.spend_fillProgress : (c.spend).fillProgress = c.fillProgress := rfl
@[simp] theorem Channel.spend_credits : (c.spend).credits = c.credits := rfl
@[simp] theorem Channel.spend_queue : (c.spend).queue = c.queue := rfl
@[simp] theorem Channel.spend_nextSeq : (c.spend).nextSeq = c.nextSeq := rfl
@[simp] theorem Channel.spend_response : (c.spend).response = c.response := rfl
@[simp] theorem Channel.spend_owed : (c.spend).owed = c.owed := rfl
@[simp] theorem Channel.spend_flights : (c.spend).flights = c.flights := rfl
@[simp] theorem Channel.spend_wbq : (c.spend).wbq = c.wbq := rfl
@[simp] theorem Channel.spend_demandCount : (c.spend).demandCount = c.demandCount := rfl
@[simp] theorem Channel.spend_patrol : (c.spend).patrol = c.patrol := rfl
@[simp] theorem Channel.spend_slots : (c.spend).slots = c.slots := rfl
@[simp] theorem Channel.spend_migration : (c.spend).migration = c.migration := rfl
@[simp] theorem Channel.spend_exhausted : (c.spend).exhausted = c.exhausted := rfl
@[simp] theorem Channel.spend_capture : (c.spend).capture = c.capture := rfl
@[simp] theorem Channel.spend_ceCount : (c.spend).ceCount = c.ceCount := rfl
@[simp] theorem Channel.spend_ueCount : (c.spend).ueCount = c.ueCount := rfl
@[simp] theorem Channel.spend_dram : (c.spend).dram = c.dram := rfl
@[simp] theorem Channel.spend_budget : (c.spend).budget = c.budget - 1 := rfl

end

/-! ### A write to DRAM -/

section
variable (c : Channel) (l : Loc) (p : Vector CwWrite 8)

@[simp] theorem Channel.writeLine_state : (c.writeLine l p).state = c.state := rfl
@[simp] theorem Channel.writeLine_physLines : (c.writeLine l p).physLines = c.physLines := rfl
@[simp] theorem Channel.writeLine_fillProgress : (c.writeLine l p).fillProgress = c.fillProgress := rfl
@[simp] theorem Channel.writeLine_credits : (c.writeLine l p).credits = c.credits := rfl
@[simp] theorem Channel.writeLine_queue : (c.writeLine l p).queue = c.queue := rfl
@[simp] theorem Channel.writeLine_nextSeq : (c.writeLine l p).nextSeq = c.nextSeq := rfl
@[simp] theorem Channel.writeLine_response : (c.writeLine l p).response = c.response := rfl
@[simp] theorem Channel.writeLine_owed : (c.writeLine l p).owed = c.owed := rfl
@[simp] theorem Channel.writeLine_flights : (c.writeLine l p).flights = c.flights := rfl
@[simp] theorem Channel.writeLine_wbq : (c.writeLine l p).wbq = c.wbq := rfl
@[simp] theorem Channel.writeLine_demandCount : (c.writeLine l p).demandCount = c.demandCount := rfl
@[simp] theorem Channel.writeLine_budget : (c.writeLine l p).budget = c.budget := rfl
@[simp] theorem Channel.writeLine_patrol : (c.writeLine l p).patrol = c.patrol := rfl
@[simp] theorem Channel.writeLine_slots : (c.writeLine l p).slots = c.slots := rfl
@[simp] theorem Channel.writeLine_migration : (c.writeLine l p).migration = c.migration := rfl
@[simp] theorem Channel.writeLine_exhausted : (c.writeLine l p).exhausted = c.exhausted := rfl
@[simp] theorem Channel.writeLine_capture : (c.writeLine l p).capture = c.capture := rfl
@[simp] theorem Channel.writeLine_ceCount : (c.writeLine l p).ceCount = c.ceCount := rfl
@[simp] theorem Channel.writeLine_ueCount : (c.writeLine l p).ueCount = c.ueCount := rfl

end

/-! ### A Write-back Queue's contents -/

section
variable (c : Channel) (q : List WbEntry)

@[simp] theorem Channel.setWbq_state : (c.setWbq q).state = c.state := rfl
@[simp] theorem Channel.setWbq_physLines : (c.setWbq q).physLines = c.physLines := rfl
@[simp] theorem Channel.setWbq_fillProgress : (c.setWbq q).fillProgress = c.fillProgress := rfl
@[simp] theorem Channel.setWbq_credits : (c.setWbq q).credits = c.credits := rfl
@[simp] theorem Channel.setWbq_queue : (c.setWbq q).queue = c.queue := rfl
@[simp] theorem Channel.setWbq_nextSeq : (c.setWbq q).nextSeq = c.nextSeq := rfl
@[simp] theorem Channel.setWbq_response : (c.setWbq q).response = c.response := rfl
@[simp] theorem Channel.setWbq_owed : (c.setWbq q).owed = c.owed := rfl
@[simp] theorem Channel.setWbq_flights : (c.setWbq q).flights = c.flights := rfl
@[simp] theorem Channel.setWbq_budget : (c.setWbq q).budget = c.budget := rfl
@[simp] theorem Channel.setWbq_patrol : (c.setWbq q).patrol = c.patrol := rfl
@[simp] theorem Channel.setWbq_slots : (c.setWbq q).slots = c.slots := rfl
@[simp] theorem Channel.setWbq_migration : (c.setWbq q).migration = c.migration := rfl
@[simp] theorem Channel.setWbq_exhausted : (c.setWbq q).exhausted = c.exhausted := rfl
@[simp] theorem Channel.setWbq_capture : (c.setWbq q).capture = c.capture := rfl
@[simp] theorem Channel.setWbq_ceCount : (c.setWbq q).ceCount = c.ceCount := rfl
@[simp] theorem Channel.setWbq_ueCount : (c.setWbq q).ueCount = c.ueCount := rfl
@[simp] theorem Channel.setWbq_dram : (c.setWbq q).dram = c.dram := rfl
@[simp] theorem Channel.setWbq_wbq : (c.setWbq q).wbq = q := rfl
@[simp] theorem Channel.setWbq_demandCount : (c.setWbq q).demandCount = if q.isEmpty then 0 else c.demandCount := rfl

end

/-! ### A handover to the Migration Unit -/

section
variable (c : Channel) (n : Nat) (p : Vector CwWrite 8)

@[simp] theorem Channel.handOver_state : (c.handOver n p).state = c.state := rfl
@[simp] theorem Channel.handOver_physLines : (c.handOver n p).physLines = c.physLines := rfl
@[simp] theorem Channel.handOver_fillProgress : (c.handOver n p).fillProgress = c.fillProgress := rfl
@[simp] theorem Channel.handOver_credits : (c.handOver n p).credits = c.credits := rfl
@[simp] theorem Channel.handOver_queue : (c.handOver n p).queue = c.queue := rfl
@[simp] theorem Channel.handOver_nextSeq : (c.handOver n p).nextSeq = c.nextSeq := rfl
@[simp] theorem Channel.handOver_response : (c.handOver n p).response = c.response := rfl
@[simp] theorem Channel.handOver_owed : (c.handOver n p).owed = c.owed := rfl
@[simp] theorem Channel.handOver_flights : (c.handOver n p).flights = c.flights := rfl
@[simp] theorem Channel.handOver_wbq : (c.handOver n p).wbq = c.wbq := rfl
@[simp] theorem Channel.handOver_demandCount : (c.handOver n p).demandCount = c.demandCount := rfl
@[simp] theorem Channel.handOver_budget : (c.handOver n p).budget = c.budget := rfl
@[simp] theorem Channel.handOver_patrol : (c.handOver n p).patrol = c.patrol := rfl
@[simp] theorem Channel.handOver_slots : (c.handOver n p).slots = c.slots := rfl
@[simp] theorem Channel.handOver_exhausted : (c.handOver n p).exhausted = c.exhausted := rfl
@[simp] theorem Channel.handOver_capture : (c.handOver n p).capture = c.capture := rfl
@[simp] theorem Channel.handOver_ceCount : (c.handOver n p).ceCount = c.ceCount := rfl
@[simp] theorem Channel.handOver_ueCount : (c.handOver n p).ueCount = c.ueCount := rfl
@[simp] theorem Channel.handOver_dram : (c.handOver n p).dram = c.dram := rfl
@[simp] theorem Channel.handOver_migration :
    (c.handOver n p).migration = c.migration.map (fun m => if m.line = n then m.take p else m) := rfl

end

/-! ### Owed poison writes shortened -/

section
variable (c : Channel) (l : Loc) (k : CwSet)

@[simp] theorem Channel.dropOwed_state : (c.dropOwed l k).state = c.state := rfl
@[simp] theorem Channel.dropOwed_physLines : (c.dropOwed l k).physLines = c.physLines := rfl
@[simp] theorem Channel.dropOwed_fillProgress : (c.dropOwed l k).fillProgress = c.fillProgress := rfl
@[simp] theorem Channel.dropOwed_credits : (c.dropOwed l k).credits = c.credits := rfl
@[simp] theorem Channel.dropOwed_queue : (c.dropOwed l k).queue = c.queue := rfl
@[simp] theorem Channel.dropOwed_nextSeq : (c.dropOwed l k).nextSeq = c.nextSeq := rfl
@[simp] theorem Channel.dropOwed_response : (c.dropOwed l k).response = c.response := rfl
@[simp] theorem Channel.dropOwed_flights : (c.dropOwed l k).flights = c.flights := rfl
@[simp] theorem Channel.dropOwed_wbq : (c.dropOwed l k).wbq = c.wbq := rfl
@[simp] theorem Channel.dropOwed_demandCount : (c.dropOwed l k).demandCount = c.demandCount := rfl
@[simp] theorem Channel.dropOwed_budget : (c.dropOwed l k).budget = c.budget := rfl
@[simp] theorem Channel.dropOwed_patrol : (c.dropOwed l k).patrol = c.patrol := rfl
@[simp] theorem Channel.dropOwed_slots : (c.dropOwed l k).slots = c.slots := rfl
@[simp] theorem Channel.dropOwed_migration : (c.dropOwed l k).migration = c.migration := rfl
@[simp] theorem Channel.dropOwed_exhausted : (c.dropOwed l k).exhausted = c.exhausted := rfl
@[simp] theorem Channel.dropOwed_capture : (c.dropOwed l k).capture = c.capture := rfl
@[simp] theorem Channel.dropOwed_ceCount : (c.dropOwed l k).ceCount = c.ceCount := rfl
@[simp] theorem Channel.dropOwed_ueCount : (c.dropOwed l k).ueCount = c.ueCount := rfl
@[simp] theorem Channel.dropOwed_dram : (c.dropOwed l k).dram = c.dram := rfl

end

/-! ### Superseded marks -/

section
variable (c : Channel) (l : Loc) (k : CwSet)

@[simp] theorem Channel.markSuperseded_state : (c.markSuperseded l k).state = c.state := rfl
@[simp] theorem Channel.markSuperseded_physLines : (c.markSuperseded l k).physLines = c.physLines := rfl
@[simp] theorem Channel.markSuperseded_fillProgress : (c.markSuperseded l k).fillProgress = c.fillProgress := rfl
@[simp] theorem Channel.markSuperseded_credits : (c.markSuperseded l k).credits = c.credits := rfl
@[simp] theorem Channel.markSuperseded_queue : (c.markSuperseded l k).queue = c.queue := rfl
@[simp] theorem Channel.markSuperseded_nextSeq : (c.markSuperseded l k).nextSeq = c.nextSeq := rfl
@[simp] theorem Channel.markSuperseded_response : (c.markSuperseded l k).response = c.response := rfl
@[simp] theorem Channel.markSuperseded_owed : (c.markSuperseded l k).owed = c.owed := rfl
@[simp] theorem Channel.markSuperseded_flights : (c.markSuperseded l k).flights = c.flights := rfl
@[simp] theorem Channel.markSuperseded_wbq : (c.markSuperseded l k).wbq = c.wbq := rfl
@[simp] theorem Channel.markSuperseded_demandCount : (c.markSuperseded l k).demandCount = c.demandCount := rfl
@[simp] theorem Channel.markSuperseded_budget : (c.markSuperseded l k).budget = c.budget := rfl
@[simp] theorem Channel.markSuperseded_slots : (c.markSuperseded l k).slots = c.slots := rfl
@[simp] theorem Channel.markSuperseded_migration : (c.markSuperseded l k).migration = c.migration := rfl
@[simp] theorem Channel.markSuperseded_exhausted : (c.markSuperseded l k).exhausted = c.exhausted := rfl
@[simp] theorem Channel.markSuperseded_capture : (c.markSuperseded l k).capture = c.capture := rfl
@[simp] theorem Channel.markSuperseded_ceCount : (c.markSuperseded l k).ceCount = c.ceCount := rfl
@[simp] theorem Channel.markSuperseded_ueCount : (c.markSuperseded l k).ueCount = c.ueCount := rfl
@[simp] theorem Channel.markSuperseded_dram : (c.markSuperseded l k).dram = c.dram := rfl

end

/-! ### An offer of origin DEMAND -/

section
variable (c : Channel) (e : WbEntry)

@[simp] theorem Channel.offerDemand_state : (c.offerDemand e).state = c.state := rfl
@[simp] theorem Channel.offerDemand_physLines : (c.offerDemand e).physLines = c.physLines := rfl
@[simp] theorem Channel.offerDemand_fillProgress : (c.offerDemand e).fillProgress = c.fillProgress := rfl
@[simp] theorem Channel.offerDemand_credits : (c.offerDemand e).credits = c.credits := rfl
@[simp] theorem Channel.offerDemand_queue : (c.offerDemand e).queue = c.queue := rfl
@[simp] theorem Channel.offerDemand_nextSeq : (c.offerDemand e).nextSeq = c.nextSeq := rfl
@[simp] theorem Channel.offerDemand_response : (c.offerDemand e).response = c.response := rfl
@[simp] theorem Channel.offerDemand_owed : (c.offerDemand e).owed = c.owed := rfl
@[simp] theorem Channel.offerDemand_flights : (c.offerDemand e).flights = c.flights := rfl
@[simp] theorem Channel.offerDemand_demandCount : (c.offerDemand e).demandCount = c.demandCount := rfl
@[simp] theorem Channel.offerDemand_budget : (c.offerDemand e).budget = c.budget := rfl
@[simp] theorem Channel.offerDemand_patrol : (c.offerDemand e).patrol = c.patrol := rfl
@[simp] theorem Channel.offerDemand_slots : (c.offerDemand e).slots = c.slots := rfl
@[simp] theorem Channel.offerDemand_migration : (c.offerDemand e).migration = c.migration := rfl
@[simp] theorem Channel.offerDemand_exhausted : (c.offerDemand e).exhausted = c.exhausted := rfl
@[simp] theorem Channel.offerDemand_capture : (c.offerDemand e).capture = c.capture := rfl
@[simp] theorem Channel.offerDemand_ceCount : (c.offerDemand e).ceCount = c.ceCount := rfl
@[simp] theorem Channel.offerDemand_ueCount : (c.offerDemand e).ueCount = c.ueCount := rfl
@[simp] theorem Channel.offerDemand_dram : (c.offerDemand e).dram = c.dram := rfl
@[simp] theorem Channel.offerDemand_wbq : (c.offerDemand e).wbq = (offerTo c.wbq e).getD c.wbq := rfl

end

/-! ### Held offers offered again -/

section
variable (c : Channel)

@[simp] theorem Channel.reoffer_state : (c.reoffer).state = c.state := rfl
@[simp] theorem Channel.reoffer_physLines : (c.reoffer).physLines = c.physLines := rfl
@[simp] theorem Channel.reoffer_fillProgress : (c.reoffer).fillProgress = c.fillProgress := rfl
@[simp] theorem Channel.reoffer_credits : (c.reoffer).credits = c.credits := rfl
@[simp] theorem Channel.reoffer_queue : (c.reoffer).queue = c.queue := rfl
@[simp] theorem Channel.reoffer_nextSeq : (c.reoffer).nextSeq = c.nextSeq := rfl
@[simp] theorem Channel.reoffer_response : (c.reoffer).response = c.response := rfl
@[simp] theorem Channel.reoffer_owed : (c.reoffer).owed = c.owed := rfl
@[simp] theorem Channel.reoffer_flights : (c.reoffer).flights = c.flights := rfl
@[simp] theorem Channel.reoffer_demandCount : (c.reoffer).demandCount = c.demandCount := rfl
@[simp] theorem Channel.reoffer_budget : (c.reoffer).budget = c.budget := rfl
@[simp] theorem Channel.reoffer_slots : (c.reoffer).slots = c.slots := rfl
@[simp] theorem Channel.reoffer_migration : (c.reoffer).migration = c.migration := rfl
@[simp] theorem Channel.reoffer_exhausted : (c.reoffer).exhausted = c.exhausted := rfl
@[simp] theorem Channel.reoffer_capture : (c.reoffer).capture = c.capture := rfl
@[simp] theorem Channel.reoffer_ceCount : (c.reoffer).ceCount = c.ceCount := rfl
@[simp] theorem Channel.reoffer_ueCount : (c.reoffer).ueCount = c.ueCount := rfl
@[simp] theorem Channel.reoffer_dram : (c.reoffer).dram = c.dram := rfl
@[simp] theorem Channel.reoffer_wbq : (c.reoffer).wbq = (offerHeld c.wbq c.patrol.held).1 := rfl
@[simp] theorem Channel.reoffer_patrol :
    (c.reoffer).patrol = { c.patrol with held := (offerHeld c.wbq c.patrol.held).2 } := rfl

end

/-! ### New offers of origin PATROL -/

section
variable (c : Channel) (es : List WbEntry)

@[simp] theorem Channel.offerPatrol_state : (c.offerPatrol es).state = c.state := rfl
@[simp] theorem Channel.offerPatrol_physLines : (c.offerPatrol es).physLines = c.physLines := rfl
@[simp] theorem Channel.offerPatrol_fillProgress : (c.offerPatrol es).fillProgress = c.fillProgress := rfl
@[simp] theorem Channel.offerPatrol_credits : (c.offerPatrol es).credits = c.credits := rfl
@[simp] theorem Channel.offerPatrol_queue : (c.offerPatrol es).queue = c.queue := rfl
@[simp] theorem Channel.offerPatrol_nextSeq : (c.offerPatrol es).nextSeq = c.nextSeq := rfl
@[simp] theorem Channel.offerPatrol_response : (c.offerPatrol es).response = c.response := rfl
@[simp] theorem Channel.offerPatrol_owed : (c.offerPatrol es).owed = c.owed := rfl
@[simp] theorem Channel.offerPatrol_flights : (c.offerPatrol es).flights = c.flights := rfl
@[simp] theorem Channel.offerPatrol_demandCount : (c.offerPatrol es).demandCount = c.demandCount := rfl
@[simp] theorem Channel.offerPatrol_budget : (c.offerPatrol es).budget = c.budget := rfl
@[simp] theorem Channel.offerPatrol_slots : (c.offerPatrol es).slots = c.slots := rfl
@[simp] theorem Channel.offerPatrol_migration : (c.offerPatrol es).migration = c.migration := rfl
@[simp] theorem Channel.offerPatrol_exhausted : (c.offerPatrol es).exhausted = c.exhausted := rfl
@[simp] theorem Channel.offerPatrol_capture : (c.offerPatrol es).capture = c.capture := rfl
@[simp] theorem Channel.offerPatrol_ceCount : (c.offerPatrol es).ceCount = c.ceCount := rfl
@[simp] theorem Channel.offerPatrol_ueCount : (c.offerPatrol es).ueCount = c.ueCount := rfl
@[simp] theorem Channel.offerPatrol_dram : (c.offerPatrol es).dram = c.dram := rfl
@[simp] theorem Channel.offerPatrol_wbq : (c.offerPatrol es).wbq = (offerHeld c.wbq (c.patrol.held ++ es)).1 := rfl
@[simp] theorem Channel.offerPatrol_patrol :
    (c.offerPatrol es).patrol = { c.patrol with held := (offerHeld c.wbq (c.patrol.held ++ es)).2 } := rfl

end

/-! ### An owed poison write -/

section
variable (c : Channel) (n : Nat) (l : Loc) (k : CwSet) (o : OwedBy)

@[simp] theorem Channel.owe_state : (c.owe n l k o).state = c.state := by unfold Channel.owe; split <;> rfl
@[simp] theorem Channel.owe_physLines : (c.owe n l k o).physLines = c.physLines := by unfold Channel.owe; split <;> rfl
@[simp] theorem Channel.owe_fillProgress :
    (c.owe n l k o).fillProgress = c.fillProgress := by unfold Channel.owe; split <;> rfl
@[simp] theorem Channel.owe_credits : (c.owe n l k o).credits = c.credits := by unfold Channel.owe; split <;> rfl
@[simp] theorem Channel.owe_queue : (c.owe n l k o).queue = c.queue := by unfold Channel.owe; split <;> rfl
@[simp] theorem Channel.owe_nextSeq : (c.owe n l k o).nextSeq = c.nextSeq := by unfold Channel.owe; split <;> rfl
@[simp] theorem Channel.owe_response : (c.owe n l k o).response = c.response := by unfold Channel.owe; split <;> rfl
@[simp] theorem Channel.owe_flights : (c.owe n l k o).flights = c.flights := by unfold Channel.owe; split <;> rfl
@[simp] theorem Channel.owe_wbq : (c.owe n l k o).wbq = c.wbq := by unfold Channel.owe; split <;> rfl
@[simp] theorem Channel.owe_demandCount :
    (c.owe n l k o).demandCount = c.demandCount := by unfold Channel.owe; split <;> rfl
@[simp] theorem Channel.owe_budget : (c.owe n l k o).budget = c.budget := by unfold Channel.owe; split <;> rfl
@[simp] theorem Channel.owe_patrol : (c.owe n l k o).patrol = c.patrol := by unfold Channel.owe; split <;> rfl
@[simp] theorem Channel.owe_slots : (c.owe n l k o).slots = c.slots := by unfold Channel.owe; split <;> rfl
@[simp] theorem Channel.owe_migration : (c.owe n l k o).migration = c.migration := by unfold Channel.owe; split <;> rfl
@[simp] theorem Channel.owe_exhausted : (c.owe n l k o).exhausted = c.exhausted := by unfold Channel.owe; split <;> rfl
@[simp] theorem Channel.owe_capture : (c.owe n l k o).capture = c.capture := by unfold Channel.owe; split <;> rfl
@[simp] theorem Channel.owe_ceCount : (c.owe n l k o).ceCount = c.ceCount := by unfold Channel.owe; split <;> rfl
@[simp] theorem Channel.owe_ueCount : (c.owe n l k o).ueCount = c.ueCount := by unfold Channel.owe; split <;> rfl
@[simp] theorem Channel.owe_dram : (c.owe n l k o).dram = c.dram := by unfold Channel.owe; split <;> rfl

end

/-! ### Writes dropped -/

section
variable (c : Channel) (p : WbEntry → Bool)

@[simp] theorem Channel.dropWrites_state :
    (c.dropWrites p).state = c.state := by unfold Channel.dropWrites; split <;> rfl
@[simp] theorem Channel.dropWrites_physLines :
    (c.dropWrites p).physLines = c.physLines := by unfold Channel.dropWrites; split <;> rfl
@[simp] theorem Channel.dropWrites_fillProgress :
    (c.dropWrites p).fillProgress = c.fillProgress := by unfold Channel.dropWrites; split <;> rfl
@[simp] theorem Channel.dropWrites_credits :
    (c.dropWrites p).credits = c.credits := by unfold Channel.dropWrites; split <;> rfl
@[simp] theorem Channel.dropWrites_queue :
    (c.dropWrites p).queue = c.queue := by unfold Channel.dropWrites; split <;> rfl
@[simp] theorem Channel.dropWrites_nextSeq :
    (c.dropWrites p).nextSeq = c.nextSeq := by unfold Channel.dropWrites; split <;> rfl
@[simp] theorem Channel.dropWrites_response :
    (c.dropWrites p).response = c.response := by unfold Channel.dropWrites; split <;> rfl
@[simp] theorem Channel.dropWrites_owed : (c.dropWrites p).owed = c.owed := by unfold Channel.dropWrites; split <;> rfl
@[simp] theorem Channel.dropWrites_flights :
    (c.dropWrites p).flights = c.flights := by unfold Channel.dropWrites; split <;> rfl
@[simp] theorem Channel.dropWrites_budget :
    (c.dropWrites p).budget = c.budget := by unfold Channel.dropWrites; split <;> rfl
@[simp] theorem Channel.dropWrites_slots :
    (c.dropWrites p).slots = c.slots := by unfold Channel.dropWrites; split <;> rfl
@[simp] theorem Channel.dropWrites_migration :
    (c.dropWrites p).migration = c.migration := by unfold Channel.dropWrites; split <;> rfl
@[simp] theorem Channel.dropWrites_exhausted :
    (c.dropWrites p).exhausted = c.exhausted := by unfold Channel.dropWrites; split <;> rfl
@[simp] theorem Channel.dropWrites_capture :
    (c.dropWrites p).capture = c.capture := by unfold Channel.dropWrites; split <;> rfl
@[simp] theorem Channel.dropWrites_ceCount :
    (c.dropWrites p).ceCount = c.ceCount := by unfold Channel.dropWrites; split <;> rfl
@[simp] theorem Channel.dropWrites_ueCount :
    (c.dropWrites p).ueCount = c.ueCount := by unfold Channel.dropWrites; split <;> rfl
@[simp] theorem Channel.dropWrites_dram : (c.dropWrites p).dram = c.dram := by unfold Channel.dropWrites; split <;> rfl

end

/-! ### A Write-back Queue emptied -/

section
variable (c : Channel)

@[simp] theorem Channel.emptyWbq_state : (c.emptyWbq).state = c.state := rfl
@[simp] theorem Channel.emptyWbq_physLines : (c.emptyWbq).physLines = c.physLines := rfl
@[simp] theorem Channel.emptyWbq_fillProgress : (c.emptyWbq).fillProgress = c.fillProgress := rfl
@[simp] theorem Channel.emptyWbq_credits : (c.emptyWbq).credits = c.credits := rfl
@[simp] theorem Channel.emptyWbq_queue : (c.emptyWbq).queue = c.queue := rfl
@[simp] theorem Channel.emptyWbq_nextSeq : (c.emptyWbq).nextSeq = c.nextSeq := rfl
@[simp] theorem Channel.emptyWbq_response : (c.emptyWbq).response = c.response := rfl
@[simp] theorem Channel.emptyWbq_owed : (c.emptyWbq).owed = c.owed := rfl
@[simp] theorem Channel.emptyWbq_flights : (c.emptyWbq).flights = c.flights := rfl
@[simp] theorem Channel.emptyWbq_budget : (c.emptyWbq).budget = c.budget := rfl
@[simp] theorem Channel.emptyWbq_slots : (c.emptyWbq).slots = c.slots := rfl
@[simp] theorem Channel.emptyWbq_migration : (c.emptyWbq).migration = c.migration := rfl
@[simp] theorem Channel.emptyWbq_exhausted : (c.emptyWbq).exhausted = c.exhausted := rfl
@[simp] theorem Channel.emptyWbq_capture : (c.emptyWbq).capture = c.capture := rfl
@[simp] theorem Channel.emptyWbq_ceCount : (c.emptyWbq).ceCount = c.ceCount := rfl
@[simp] theorem Channel.emptyWbq_ueCount : (c.emptyWbq).ueCount = c.ueCount := rfl
@[simp] theorem Channel.emptyWbq_dram : (c.emptyWbq).dram = c.dram := rfl
@[simp] theorem Channel.emptyWbq_wbq : (c.emptyWbq).wbq = (offerHeld [] c.patrol.held).1 := rfl
@[simp] theorem Channel.emptyWbq_patrol :
    (c.emptyWbq).patrol = { c.patrol with held := (offerHeld [] c.patrol.held).2 } := rfl
@[simp] theorem Channel.emptyWbq_demandCount : (c.emptyWbq).demandCount = 0 := rfl

end

/-! ### A slot's state -/

section
variable (c : Channel) (i : SlotId) (x : SlotState)

@[simp] theorem Channel.setSlot_state :
    (c.setSlot i x).state = c.state := by unfold Channel.setSlot; dsimp only; split <;> simp
@[simp] theorem Channel.setSlot_physLines :
    (c.setSlot i x).physLines = c.physLines := by unfold Channel.setSlot; dsimp only; split <;> simp
@[simp] theorem Channel.setSlot_fillProgress :
    (c.setSlot i x).fillProgress = c.fillProgress := by unfold Channel.setSlot; dsimp only; split <;> simp
@[simp] theorem Channel.setSlot_credits :
    (c.setSlot i x).credits = c.credits := by unfold Channel.setSlot; dsimp only; split <;> simp
@[simp] theorem Channel.setSlot_queue :
    (c.setSlot i x).queue = c.queue := by unfold Channel.setSlot; dsimp only; split <;> simp
@[simp] theorem Channel.setSlot_nextSeq :
    (c.setSlot i x).nextSeq = c.nextSeq := by unfold Channel.setSlot; dsimp only; split <;> simp
@[simp] theorem Channel.setSlot_response :
    (c.setSlot i x).response = c.response := by unfold Channel.setSlot; dsimp only; split <;> simp
@[simp] theorem Channel.setSlot_owed :
    (c.setSlot i x).owed = c.owed := by unfold Channel.setSlot; dsimp only; split <;> simp
@[simp] theorem Channel.setSlot_budget :
    (c.setSlot i x).budget = c.budget := by unfold Channel.setSlot; dsimp only; split <;> simp
@[simp] theorem Channel.setSlot_migration :
    (c.setSlot i x).migration = c.migration := by unfold Channel.setSlot; dsimp only; split <;> simp
@[simp] theorem Channel.setSlot_capture :
    (c.setSlot i x).capture = c.capture := by unfold Channel.setSlot; dsimp only; split <;> simp
@[simp] theorem Channel.setSlot_ceCount :
    (c.setSlot i x).ceCount = c.ceCount := by unfold Channel.setSlot; dsimp only; split <;> simp
@[simp] theorem Channel.setSlot_ueCount :
    (c.setSlot i x).ueCount = c.ueCount := by unfold Channel.setSlot; dsimp only; split <;> simp
@[simp] theorem Channel.setSlot_dram :
    (c.setSlot i x).dram = c.dram := by unfold Channel.setSlot; dsimp only; split <;> simp
@[simp] theorem Channel.setSlot_slots :
    (c.setSlot i x).slots = c.slots.set i.val x := by unfold Channel.setSlot; dsimp only; split <;> simp
@[simp] theorem Channel.setSlot_exhausted :
    (c.setSlot i x).exhausted = false := by unfold Channel.setSlot; dsimp only; split <;> simp
@[simp] theorem Channel.setSlot_flights :
    (c.setSlot i x).flights = c.flights.map (fun f => if f.loc = .slot i then { f with moved := true } else f) := by unfold Channel.setSlot; dsimp only; split <;> simp

end

end Sys2Proof.Machine
end

