-- ==== Sys2Proof/Laws/Exec.lean ====
section
/-! SUPPORT. Each command's meaning by name: exec at a constructor is the meaning of that command. -/

namespace Sys2Proof.Machine

section
variable (s : State)

@[simp] theorem exec_requestArrival (ch : ChanId) (req : Request) :
    exec (.requestArrival ch req) s = execRequestArrival ch req s := rfl
@[simp] theorem exec_responseDeparture (ch : ChanId) :
    exec (.responseDeparture ch) s = execResponseDeparture ch s := rfl
@[simp] theorem exec_demandReadIssue (ch : ChanId) : exec (.demandReadIssue ch) s = execDemandReadIssue ch s := rfl
@[simp] theorem exec_demandWriteIssue (ch : ChanId) : exec (.demandWriteIssue ch) s = execDemandWriteIssue ch s := rfl
@[simp] theorem exec_mergeReadIssue (ch : ChanId) : exec (.mergeReadIssue ch) s = execMergeReadIssue ch s := rfl
@[simp] theorem exec_mergeReadDecode (ch : ChanId) (upsets : LineWords) :
    exec (.mergeReadDecode ch upsets) s = execMergeReadDecode ch upsets s := rfl
@[simp] theorem exec_mergeWriteIssue (ch : ChanId) : exec (.mergeWriteIssue ch) s = execMergeWriteIssue ch s := rfl
@[simp] theorem exec_poisonWriteIssue (ch : ChanId) : exec (.poisonWriteIssue ch) s = execPoisonWriteIssue ch s := rfl
@[simp] theorem exec_writeBackIssue (ch : ChanId) : exec (.writeBackIssue ch) s = execWriteBackIssue ch s := rfl
@[simp] theorem exec_fillWriteIssue (ch : ChanId) : exec (.fillWriteIssue ch) s = execFillWriteIssue ch s := rfl
@[simp] theorem exec_copyReadIssue (ch : ChanId) : exec (.copyReadIssue ch) s = execCopyReadIssue ch s := rfl
@[simp] theorem exec_copyReadDecode (ch : ChanId) (upsets : LineWords) :
    exec (.copyReadDecode ch upsets) s = execCopyReadDecode ch upsets s := rfl
@[simp] theorem exec_copyWriteIssue (ch : ChanId) : exec (.copyWriteIssue ch) s = execCopyWriteIssue ch s := rfl
@[simp] theorem exec_verifyReadIssue (ch : ChanId) : exec (.verifyReadIssue ch) s = execVerifyReadIssue ch s := rfl
@[simp] theorem exec_verifyReadDecode (ch : ChanId) (upsets : LineWords) :
    exec (.verifyReadDecode ch upsets) s = execVerifyReadDecode ch upsets s := rfl
@[simp] theorem exec_patrolIssueStep (ch : ChanId) : exec (.patrolIssueStep ch) s = execPatrolIssueStep ch s := rfl
@[simp] theorem exec_patrolReadDecode (ch : ChanId) (upsets : LineWords) :
    exec (.patrolReadDecode ch upsets) s = execPatrolReadDecode ch upsets s := rfl
@[simp] theorem exec_patrolReadFinish (ch : ChanId) : exec (.patrolReadFinish ch) s = execPatrolReadFinish ch s := rfl
@[simp] theorem exec_demandReadDecode (ch : ChanId) (upsets : LineWords) :
    exec (.demandReadDecode ch upsets) s = execDemandReadDecode ch upsets s := rfl
@[simp] theorem exec_slotEnd : exec .slotEnd s = execSlotEnd s := rfl
@[simp] theorem exec_beat : exec .beat s = execBeat s := rfl
@[simp] theorem exec_watchdogExpiry : exec .watchdogExpiry s = execWatchdogExpiry s := rfl
@[simp] theorem exec_resetAssert : exec .resetAssert s = execResetAssert s := rfl
@[simp] theorem exec_resetEnd (csLow : Bool) : exec (.resetEnd csLow) s = execResetEnd csLow s := rfl
@[simp] theorem exec_linkShort (bits : Nat) : exec (.linkShort bits) s = execLinkShort bits s := rfl
@[simp] theorem exec_linkCheckError (extra : Nat) (code : Byte) :
    exec (.linkCheckError extra code) s = execLinkCheckError extra code s := rfl
@[simp] theorem exec_unknown (extra : Nat) (code : Byte) :
    exec (.unknown extra code) s = execUnknown extra code s := rfl
@[simp] theorem exec_nop (extra : Nat) : exec (.nop extra) s = execNop extra s := rfl
@[simp] theorem exec_status (extra : Nat) (page : Byte) : exec (.status extra page) s = execStatus extra page s := rfl
@[simp] theorem exec_getSetting (extra : Nat) (id : Byte) :
    exec (.getSetting extra id) s = execGetSetting extra id s := rfl
@[simp] theorem exec_setSetting (extra : Nat) (id : Byte) (value : BitVec 32) :
    exec (.setSetting extra id value) s = execSetSetting extra id value s := rfl
@[simp] theorem exec_setPhysLines (extra : Nat) (ch : ChanId) (value : BitVec 32) :
    exec (.setPhysLines extra ch value) s = execSetPhysLines extra ch value s := rfl
@[simp] theorem exec_setCadenceSource (extra : Nat) (value : BitVec 32) :
    exec (.setCadenceSource extra value) s = execSetCadenceSource extra value s := rfl
@[simp] theorem exec_setCadenceTimeout (extra : Nat) (value : BitVec 32) :
    exec (.setCadenceTimeout extra value) s = execSetCadenceTimeout extra value s := rfl
@[simp] theorem exec_setFocusInterval (extra : Nat) (value : BitVec 32) :
    exec (.setFocusInterval extra value) s = execSetFocusInterval extra value s := rfl
@[simp] theorem exec_setAlertMask (extra : Nat) (value : BitVec 32) :
    exec (.setAlertMask extra value) s = execSetAlertMask extra value s := rfl
@[simp] theorem exec_softReset (extra : Nat) : exec (.softReset extra) s = execSoftReset extra s := rfl
@[simp] theorem exec_lookup (extra : Nat) (ch : Byte) (line : BitVec 32) :
    exec (.lookup extra ch line) s = execLookup extra ch line s := rfl
@[simp] theorem exec_next (extra : Nat) (flag : Byte) (ch : Byte) (line : BitVec 32) (filter : Byte) :
    exec (.next extra flag ch line filter) s = execNext extra flag ch line filter s := rfl
@[simp] theorem exec_adopt (extra : Nat) (ch : Byte) (line : BitVec 32) (state : Byte) (slot : BitVec 16) :
    exec (.adopt extra ch line state slot) s = execAdopt extra ch line state slot s := rfl
@[simp] theorem exec_pin (extra : Nat) (ch : Byte) (line : BitVec 32) :
    exec (.pin extra ch line) s = execPin extra ch line s := rfl
@[simp] theorem exec_unpin (extra : Nat) (ch : Byte) (line : BitVec 32) :
    exec (.unpin extra ch line) s = execUnpin extra ch line s := rfl
@[simp] theorem exec_retire (extra : Nat) (ch : Byte) (line : BitVec 32) :
    exec (.retire extra ch line) s = execRetire extra ch line s := rfl
@[simp] theorem exec_release (extra : Nat) (ch : Byte) (line : BitVec 32) :
    exec (.release extra ch line) s = execRelease extra ch line s := rfl
@[simp] theorem exec_clearHold (extra : Nat) (ch : Byte) (line : BitVec 32) :
    exec (.clearHold extra ch line) s = execClearHold extra ch line s := rfl
@[simp] theorem exec_spare (extra : Nat) (ch : Byte) (line : BitVec 32) :
    exec (.spare extra ch line) s = execSpare extra ch line s := rfl
@[simp] theorem exec_cancel (extra : Nat) (ch : Byte) (line : BitVec 32) :
    exec (.cancel extra ch line) s = execCancel extra ch line s := rfl
@[simp] theorem exec_spareQuery (extra : Nat) (ch : Byte) :
    exec (.spareQuery extra ch) s = execSpareQuery extra ch s := rfl
@[simp] theorem exec_spareSlot (extra : Nat) (ch : Byte) (slot : BitVec 16) :
    exec (.spareSlot extra ch slot) s = execSpareSlot extra ch slot s := rfl
@[simp] theorem exec_spareRestore (extra : Nat) (ch : Byte) (slot : BitVec 16) :
    exec (.spareRestore extra ch slot) s = execSpareRestore extra ch slot s := rfl
@[simp] theorem exec_regionSet (extra : Nat) (index enabled chans : Byte) (first last : BitVec 32) (cls : Byte) :
    exec (.regionSet extra index enabled chans first last cls) s = execRegionSet extra index enabled chans first last cls s := rfl
@[simp] theorem exec_regionGet (extra : Nat) (index : Byte) :
    exec (.regionGet extra index) s = execRegionGet extra index s := rfl
@[simp] theorem exec_classSet (extra : Nat) (cls : Byte) (tHot tSpare : BitVec 16) (autoSpare demandWb : Byte) :
    exec (.classSet extra cls tHot tSpare autoSpare demandWb) s = execClassSet extra cls tHot tSpare autoSpare demandWb s := rfl
@[simp] theorem exec_classGet (extra : Nat) (cls : Byte) :
    exec (.classGet extra cls) s = execClassGet extra cls s := rfl
@[simp] theorem exec_channelFill (extra : Nat) (ch : Byte) :
    exec (.channelFill extra ch) s = execChannelFill extra ch s := rfl
@[simp] theorem exec_channelOnline (extra : Nat) (ch : Byte) :
    exec (.channelOnline extra ch) s = execChannelOnline extra ch s := rfl
@[simp] theorem exec_channelOffline (extra : Nat) (ch : Byte) :
    exec (.channelOffline extra ch) s = execChannelOffline extra ch s := rfl
@[simp] theorem exec_patrolStart (extra : Nat) (ch mode flag : Byte) (start : BitVec 32) :
    exec (.patrolStart extra ch mode flag start) s = execPatrolStart extra ch mode flag start s := rfl
@[simp] theorem exec_patrolHalt (extra : Nat) (ch : Byte) :
    exec (.patrolHalt extra ch) s = execPatrolHalt extra ch s := rfl
@[simp] theorem exec_setPhase (extra : Nat) (phase : Byte) :
    exec (.setPhase extra phase) s = execSetPhase extra phase s := rfl
@[simp] theorem exec_profileSet (extra : Nat) (phase : Byte) (mask : BitVec 32) (ops : Byte) :
    exec (.profileSet extra phase mask ops) s = execProfileSet extra phase mask ops s := rfl
@[simp] theorem exec_profileGet (extra : Nat) (phase : Byte) :
    exec (.profileGet extra phase) s = execProfileGet extra phase s := rfl
@[simp] theorem exec_captureRead (extra : Nat) (ch : Byte) :
    exec (.captureRead extra ch) s = execCaptureRead extra ch s := rfl
@[simp] theorem exec_captureClear (extra : Nat) (ch : Byte) :
    exec (.captureClear extra ch) s = execCaptureClear extra ch s := rfl
@[simp] theorem exec_countsRead (extra : Nat) (ch : Byte) :
    exec (.countsRead extra ch) s = execCountsRead extra ch s := rfl
@[simp] theorem exec_countsClear (extra : Nat) (ch : Byte) :
    exec (.countsClear extra ch) s = execCountsClear extra ch s := rfl
@[simp] theorem exec_alertRead (extra : Nat) : exec (.alertRead extra) s = execAlertRead extra s := rfl
@[simp] theorem exec_alertAck (extra : Nat) (causes : BitVec 16) :
    exec (.alertAck extra causes) s = execAlertAck extra causes s := rfl

end

end Sys2Proof.Machine
end

