-- ==== Sys2Proof/Laws/Access.lean ====
section
/-! SUPPORT. Channel access after an update, arguments that read back as the item they encode, and the frame of an operation
on one channel. -/

namespace Sys2Proof.Machine

/-! ### Reading a channel after an update -/

section
variable (s : State) (ch d : ChanId) (f : Channel → Channel)

@[simp] theorem State.chan_modChan_same : (s.modChan ch f).chan ch = f (s.chan ch) := by
  show (s.chans.set ch.val (f (s.chan ch)))[ch.val] = _
  simp

theorem State.chan_modChan_of_ne (h : d ≠ ch) : (s.modChan ch f).chan d = s.chan d := by
  have h' : ch.val ≠ d.val := fun e => h (Fin.ext e.symm)
  show (s.chans.set ch.val (f (s.chan ch)))[d.val] = s.chans[d.val]
  simp [h']

theorem State.chan_modChan : (s.modChan ch f).chan d = if d = ch then f (s.chan ch) else s.chan d := by
  split
  · next h => subst h; simp
  · next h => exact State.chan_modChan_of_ne s ch d f h

@[simp] theorem State.chan_modAllChans : (s.modAllChans f).chan d = f (s.chan d) := by
  show (s.chans.map f)[d.val] = f s.chans[d.val]
  simp

@[simp] theorem State.chan_raise (k : Cause) : (s.raise k).chan d = s.chan d := rfl
@[simp] theorem State.chan_modRec (n : Nat) (g : Record → Record) : (s.modRec ch n g).chan d = s.chan d := rfl
@[simp] theorem State.chan_withAnswer (t : State) (e : Nat) (k : Byte) (r : Result) (p : BitVec 160) :
    (s.withAnswer t e k r p).chan d = s.chan d := rfl
@[simp] theorem State.chan_decay : (s.decay ch).chan d = s.chan d := rfl
@[simp] theorem State.rec?_modChan (c : ChanId) (n : Nat) : (s.modChan ch f).rec? c n = s.rec? c n := rfl
@[simp] theorem State.rec?_raise (k : Cause) (c : ChanId) (n : Nat) : (s.raise k).rec? c n = s.rec? c n := rfl

end

/-- Two states with the same channels and the same other fields are the same. -/
theorem State.chans_ext {s t : State} (h : ∀ c : ChanId, t.chan c = s.chan c) : t.chans = s.chans := by
  apply Vector.ext
  intro i hi
  exact h ⟨i, hi⟩

/-- A change that leaves a channel as it was changes nothing. -/
theorem State.modChan_eq_self {s : State} {ch : ChanId} {f : Channel → Channel} (h : f (s.chan ch) = s.chan ch) :
    s.modChan ch f = s := by
  have hc : (s.modChan ch f).chans = s.chans := by
    apply State.chans_ext
    intro c
    rw [State.chan_modChan]
    split
    · next e => rw [h, e]
    · rfl
  have h2 : s.modChan ch f = { s with chans := (s.modChan ch f).chans } := rfl
  rw [h2, hc]

/-- Two changes of one channel are one. -/
theorem State.modChan_modChan (s : State) (ch : ChanId) (f g : Channel → Channel) :
    (s.modChan ch f).modChan ch g = s.modChan ch (fun c => g (f c)) := by
  have hc : ((s.modChan ch f).modChan ch g).chans = (s.modChan ch (fun c => g (f c))).chans := by
    apply State.chans_ext
    intro c
    by_cases h : c = ch
    · subst h; simp
    · rw [State.chan_modChan_of_ne _ _ _ _ h, State.chan_modChan_of_ne _ _ _ _ h, State.chan_modChan_of_ne _ _ _ _ h]
  have h1 : (s.modChan ch f).modChan ch g = { s with chans := ((s.modChan ch f).modChan ch g).chans } := rfl
  have h2 : s.modChan ch (fun c => g (f c)) = { s with chans := (s.modChan ch (fun c => g (f c))).chans } := rfl
  rw [h1, h2, hc]

/-- Two changes that agree on the channel as it stands are one. -/
theorem State.modChan_congr {s : State} {ch : ChanId} {f g : Channel → Channel} (h : f (s.chan ch) = g (s.chan ch)) :
    s.modChan ch f = s.modChan ch g := by
  unfold State.modChan
  rw [h]

/-! ### The frame of an operation on one channel -/

theorem State.OnlyChannel.refl (s : State) (ch : ChanId) : s.OnlyChannel s ch := ⟨rfl, fun _ _ => rfl⟩

theorem State.OnlyChannel.trans {s t u : State} {ch : ChanId} (h : s.OnlyChannel t ch) (k : t.OnlyChannel u ch) :
    s.OnlyChannel u ch := by
  refine ⟨?_, fun c hc => (k.2 c hc).trans (h.2 c hc)⟩
  have h1 := h.1
  have k1 := k.1
  rw [← h1]
  rw [← k1]

theorem State.onlyChannel_modChan (s : State) (ch : ChanId) (f : Channel → Channel) :
    s.OnlyChannel (s.modChan ch f) ch := ⟨rfl, fun c hc => State.chan_modChan_of_ne s ch c f hc⟩

theorem State.onlyChannel_raise (s : State) (ch : ChanId) (k : Cause) : s.OnlyChannel (s.raise k) ch :=
  ⟨rfl, fun _ _ => rfl⟩

theorem State.onlyChannel_modRec (s : State) (ch c : ChanId) (n : Nat) (f : Record → Record) :
    s.OnlyChannel (s.modRec c n f) ch := ⟨rfl, fun _ _ => rfl⟩

theorem State.onlyChannel_table (s : State) (ch : ChanId) (t : List Record) : s.OnlyChannel { s with table := t } ch :=
  ⟨rfl, fun _ _ => rfl⟩

section
variable {s t : State} {ch : ChanId}

theorem State.OnlyChannel.windows_eq (h : s.OnlyChannel t ch) : t.windows = s.windows := by
  have k := congrArg State.windows h.1
  exact k
theorem State.OnlyChannel.policies_eq (h : s.OnlyChannel t ch) : t.policies = s.policies := by
  have k := congrArg State.policies h.1
  exact k
theorem State.OnlyChannel.settings_eq (h : s.OnlyChannel t ch) : t.settings = s.settings := by
  have k := congrArg State.settings h.1
  exact k
theorem State.OnlyChannel.cadence_eq (h : s.OnlyChannel t ch) : t.cadence = s.cadence := by
  have k := congrArg State.cadence h.1
  exact k
theorem State.OnlyChannel.profiles_eq (h : s.OnlyChannel t ch) : t.profiles = s.profiles := by
  have k := congrArg State.profiles h.1
  exact k
theorem State.OnlyChannel.response_eq (h : s.OnlyChannel t ch) : t.response = s.response := by
  have k := congrArg State.response h.1
  exact k
theorem State.OnlyChannel.linkErrors_eq (h : s.OnlyChannel t ch) : t.linkErrors = s.linkErrors := by
  have k := congrArg State.linkErrors h.1
  exact k
theorem State.OnlyChannel.shift_eq (h : s.OnlyChannel t ch) : t.shift = s.shift := by
  have k := congrArg State.shift h.1
  exact k
theorem State.OnlyChannel.sdo_eq (h : s.OnlyChannel t ch) : t.sdo = s.sdo := by
  have k := congrArg State.sdo h.1
  exact k
theorem State.OnlyChannel.resetAsserted_eq (h : s.OnlyChannel t ch) : t.resetAsserted = s.resetAsserted := by
  have k := congrArg State.resetAsserted h.1
  exact k
theorem State.OnlyChannel.now_eq (h : s.OnlyChannel t ch) : t.now = s.now := by
  have k := congrArg State.now h.1
  exact k
theorem State.OnlyChannel.pending_eq (h : s.OnlyChannel t ch) : t.pending = s.pending := by
  have k := congrArg State.pending h.1
  exact k

end

/-! ### Arguments and codes -/

@[simp] theorem channelArg_ofNat (ch : ChanId) : channelArg (BitVec.ofNat 8 ch.val) = some ch := by
  revert ch; decide

@[simp] theorem channelArg_byte (ch : ChanId) : channelArg (ChanId.byte ch) = some ch := by
  revert ch; decide

theorem channelArg_of_four_le {b : Byte} (h : 4 ≤ b.toNat) : channelArg b = none := by
  unfold channelArg; rw [dif_neg (by omega)]

@[simp] theorem slotArg_ofNat (i : SlotId) : slotArg (BitVec.ofNat 16 i.val) = some i := by
  have h : i.val % 65536 = i.val := Nat.mod_eq_of_lt (by omega)
  simp [slotArg, h]

@[simp] theorem windowArg_ofNat (i : Fin 8) : windowArg (BitVec.ofNat 8 i.val) = some i := by
  revert i; decide

@[simp] theorem yesNoArg_byte (b : Bool) : yesNoArg (yesNoByte b) = some b := by cases b <;> rfl
@[simp] theorem classArg_byte (c : MemClass) : classArg c.byte = some c := by cases c <;> rfl
@[simp] theorem phaseArg_byte (p : Phase) : phaseArg p.byte = some p := by cases p <;> rfl
@[simp] theorem modeArg_byte (m : PatrolMode) : modeArg m.byte = some m := by cases m <;> rfl

theorem phaseArg_of_four_le {b : Byte} (h : 4 ≤ b.toNat) : phaseArg b = none := by
  unfold phaseArg
  split <;> first | omega | rfl

@[simp] theorem channelSetArg_setWidth (k : BitVec 4) : channelSetArg (k.setWidth 8) = some k := by
  revert k; decide

@[simp] theorem settingOf_physLines (ch : ChanId) : settingOf (BitVec.ofNat 8 ch.val) = some (.physLines ch) := by
  revert ch; decide

end Sys2Proof.Machine
end

