-- ==== Sys2Proof/Laws/Arbiter.lean ====
section
/-! SUPPORT. What the Channel Arbiter looks at, in the terms of Safety.lean: the head of the demand queue, what holds back a
write, and the oldest eligible write-back (R81, R85, R87, R94); what a probe keeps of the count (R97), and when a channel may be taken
offline (R77). -/

namespace Sys2Proof.Machine

theorem QEntry.passed_iff (q : QEntry) : q.passed = true ↔ q.HasLeft := by
  obtain ⟨seq, ⟨tag, line, kind⟩, stage⟩ := q
  unfold QEntry.passed QEntry.HasLeft
  cases stage <;> cases kind <;> simp

/-- A write needs a merge read when its mask covers a codeword in part (R87). -/
theorem needsMerge_iff (mask : BitVec 64) :
    needsMerge mask = true ↔ ∃ i : CwIndex, maskOf mask i ≠ 0 ∧ maskOf mask i ≠ 0xFF := by
  unfold needsMerge cwKind
  simp only [List.any_eq_true, List.mem_finRange, true_and, beq_iff_eq]
  constructor
  · rintro ⟨i, h⟩
    refine ⟨i, ?_⟩
    split_ifs at h <;> simp_all
  · rintro ⟨i, h⟩
    exact ⟨i, by rw [if_neg h.2, if_neg h.1]⟩

theorem Channel.writeWaits_iff (c : Channel) (locs : List Loc) : c.writeWaits locs = true ↔ c.HoldsBack locs := by
  have h1 : ∀ k : FlightKind, k.holdsWrites = true ↔ ∃ n, k = .demand n ∨ k = .merge n := by
    intro k
    cases k <;> simp [FlightKind.holdsWrites]
  have h2 : ∀ k : OwedBy, k.holdsWrites = true ↔ ∃ n, k = .demand n := by
    intro k
    cases k <;> simp [OwedBy.holdsWrites]
  unfold Channel.writeWaits Channel.HoldsBack
  simp only [Bool.or_eq_true, List.any_eq_true, Bool.and_eq_true, List.contains_iff_mem, h1, h2]

/-- The first of a list that passes a test, by what stands before it. -/
theorem find_eq_some_iff {α : Type} (l : List α) (p : α → Bool) (a : α) :
    l.find? p = some a ↔ ∃ x y, l = x ++ a :: y ∧ p a = true ∧ ∀ b ∈ x, p b = false := by
  rw [List.find?_eq_some_iff_append]
  constructor
  · rintro ⟨h, x, y, e, k⟩
    exact ⟨x, y, e, h, fun b hb => by simpa using k b hb⟩
  · rintro ⟨x, y, e, h, k⟩
    exact ⟨h, x, y, e, fun b hb => by simp [k b hb]⟩

/-- An entry is eligible while no read of its location is in flight (R94). -/
theorem Channel.wbEligible_iff (c : Channel) (e : WbEntry) :
    c.wbEligible e = true ↔ ∀ f ∈ c.flights, f.loc ≠ e.loc := by
  unfold Channel.wbEligible
  simp

/-- A probe keeps the consecutive-demand count of its moment (R97). -/
@[simp] theorem State.probe_count (s : State) (ch : ChanId) (n : Nat) : (s.probe ch n).count = (s.chan ch).demandCount := by
  unfold State.probe
  simp only []
  split <;> (try split) <;> (try split) <;> rfl

/-- When CHANNEL_OFFLINE takes an ONLINE channel offline (R77). -/
theorem Channel.atRest_iff (c : Channel) :
    c.atRest = true ↔ c.queue = [] ∧ (c.patrol.state = .idle ∨ c.patrol.state = .done) ∧ c.migration = none ∧
      c.owed = [] ∧ ∀ f ∈ c.flights, f.kind.ofMigration = false := by
  simp [Channel.atRest, Option.isNone_iff_eq_none, and_assoc]

/-- When CHANNEL_OFFLINE finds an ONLINE channel BUSY (R77). -/
theorem Channel.atRest_false_iff (c : Channel) :
    c.atRest = false ↔ c.queue ≠ [] ∨ c.patrol.state = .running ∨ c.patrol.state = .halting ∨
      c.migration.isSome = true ∨ c.owed ≠ [] ∨ ∃ f ∈ c.flights, f.kind.ofMigration = true := by
  rw [← Bool.not_eq_true, Channel.atRest_iff]
  cases c.patrol.state <;> cases c.migration <;> simp <;> tauto

end Sys2Proof.Machine
end

