-- ==== Sys2Proof/Laws/Codec.lean ====
section
/-! SUPPORT. Sets of codeword indices and the data of a line, as the decodes of reads build them; what a write's mask divides. -/

namespace Sys2Proof.Machine

/-- A set built codeword by codeword. -/
theorem CwSet.has_foldl (p : CwIndex → Bool) (i : CwIndex) (l : List CwIndex) (acc : CwSet) :
    CwSet.has (l.foldl (fun acc i => if p i then acc ||| cwBit i else acc) acc) i =
      (CwSet.has acc i || (l.contains i && p i)) := by
  have hb : ∀ j k : CwIndex, CwSet.has (cwBit j) k = decide (j = k) := by decide
  induction l generalizing acc with
  | nil => simp
  | cons x xs ih =>
    rw [List.foldl_cons, ih]
    have hor : CwSet.has (acc ||| cwBit x) i = (CwSet.has acc i || decide (x = i)) := by
      rw [← hb]; unfold CwSet.has; exact BitVec.getLsbD_or
    by_cases hx : x = i
    · subst hx
      cases hp : p x <;> simp [hor]
    · have : (x :: xs).contains i = xs.contains i := by
        simp [Ne.symm hx]
      rw [this]
      split
      · rw [hor]; simp [hx]
      · rfl

/-- A set made from a test holds the codewords that pass it. -/
@[simp] theorem CwSet.has_cwSetOf (p : CwIndex → Bool) (i : CwIndex) : CwSet.has (cwSetOf p) i = p i := by
  unfold cwSetOf
  rw [CwSet.has_foldl]
  have : (List.finRange 8).contains i = true := by simp
  rw [this]
  simp [CwSet.has]

/-- A line made of the data of its codewords gives each back. -/
@[simp] theorem LineData.codeword_lineOf (f : CwIndex → Data) (i : CwIndex) : LineData.codeword (lineOf f) i = f i := by
  have key : ∀ (l : List CwIndex) (acc : LineData), l.Nodup → LineData.codeword (l.foldl (fun acc i => acc ||| ((f i).setWidth 512 <<< (64 * i.val))) acc) i =
     LineData.codeword acc i ||| (if i ∈ l then f i else 0) := by
    intro l
    induction l with
    | nil => intro acc _; simp
    | cons x xs ih =>
      intro acc hn
      rw [List.foldl_cons, ih _ (List.nodup_cons.mp hn).2]
      have h1 : LineData.codeword (acc ||| ((f x).setWidth 512 <<< (64 * x.val))) i = LineData.codeword acc i ||| (if i = x then f x else 0) := by
        unfold LineData.codeword
        apply BitVec.eq_of_getLsbD_eq
        intro j hj
        simp only [BitVec.getLsbD_extractLsb', BitVec.getLsbD_or, BitVec.getLsbD_shiftLeft, BitVec.getLsbD_setWidth, hj]
        by_cases hx : i = x
        · subst hx
          have : 64 * i.val + j < 512 := by omega
          have h2 : 64 * i.val + j - 64 * i.val = j := by omega
          have h3 : ¬ 64 * i.val + j < 64 * i.val := by omega
          rw [h2, if_pos rfl]
          simp only [this, h3, decide_true, decide_false, Bool.not_false, Bool.true_and, Bool.and_true]
          rw [show decide (j < 512) = true by rw [decide_eq_true_eq]; omega, Bool.true_and]
        · rw [if_neg hx]
          have hv : i.val ≠ x.val := fun e => hx (Fin.ext e)
          have : (f x).getLsbD (64 * i.val + j - 64 * x.val) = false ∨ 64 * i.val + j < 64 * x.val := by
            by_cases hlt : i.val < x.val
            · right; omega
            · left; apply BitVec.getLsbD_of_ge; omega
          rcases this with h | h <;> simp [h]
      rw [h1]
      by_cases hx : i = x
      · subst hx; simp [(List.nodup_cons.mp hn).1]
      · simp [hx]
  unfold lineOf
  rw [key _ _ (List.nodup_finRange 8)]
  simp [LineData.codeword]

theorem cwSetOf_eq_zero (p : CwIndex → Bool) : cwSetOf p = 0 ↔ ∀ i, p i = false := by
  constructor
  · intro h i
    have := CwSet.has_cwSetOf p i
    rw [h] at this
    rw [← this]
    unfold CwSet.has
    exact BitVec.getLsbD_zero
  · intro h
    apply BitVec.eq_of_getLsbD_eq
    intro j hj
    have := CwSet.has_cwSetOf p ⟨j, hj⟩
    rw [h] at this
    simpa [CwSet.has] using this

theorem cwKind_full {mask : BitVec 64} {i : CwIndex} : cwKind mask i = .full ↔ maskOf mask i = 0xFF := by
  unfold cwKind
  split
  · simp [*]
  · split <;> simp_all

theorem cwKind_untouched {mask : BitVec 64} {i : CwIndex} : cwKind mask i = .untouched ↔ maskOf mask i = 0 := by
  unfold cwKind
  split
  · next h => simp [h]
  · split <;> simp_all

theorem cwKind_partly {mask : BitVec 64} {i : CwIndex} :
    cwKind mask i = .partly ↔ maskOf mask i ≠ 0xFF ∧ maskOf mask i ≠ 0 := by
  unfold cwKind
  split
  · next h => simp [h]
  · split <;> simp_all

end Sys2Proof.Machine
end

