-- ==== Sys2Proof/Laws/Dram.lean ====
section
/-! SUPPORT. The DRAM image: a read after a write, the canonical form, and the write of a line. -/

namespace Sys2Proof.Machine

theorem dramGet_dramPut (m : List (Nat × Codeword)) (a b : Nat) (w : Codeword) :
    dramGet (dramPut m a w) b = if a = b then some w else dramGet m b := by
  induction m with
  | nil => simp [dramPut, dramGet]
  | cons x rest ih =>
    obtain ⟨k, v⟩ := x
    simp only [dramPut]
    split
    · simp [dramGet]
    · split
      · next e =>
        subst e
        simp only [dramGet]
        split
        · rfl
        · rfl
      · next h1 h2 =>
        simp only [dramGet, ih]
        by_cases hk : k = b
        · subst hk; simp [show ¬ a = k from h2]
        · simp [hk]

/-- The least address of a canonical image. -/
theorem dramWf_cons {a : Nat} {v : Codeword} {m : List (Nat × Codeword)} :
    dramWf ((a, v) :: m) = true ↔ dramWf m = true ∧ ∀ x ∈ m, a < x.1 := by
  induction m generalizing a v with
  | nil => simp [dramWf]
  | cons y ys ih =>
    obtain ⟨b, w⟩ := y
    simp only [dramWf, Bool.and_eq_true, decide_eq_true_eq, List.mem_cons, forall_eq_or_imp]
    constructor
    · rintro ⟨h1, h2⟩
      exact ⟨h2, h1, fun x hx => lt_trans h1 ((ih.mp h2).2 x hx)⟩
    · rintro ⟨h1, h2, _⟩
      exact ⟨h2, h1⟩

theorem mem_dramPut {m : List (Nat × Codeword)} {a : Nat} {w : Codeword} {x : Nat × Codeword}
    (h : x ∈ dramPut m a w) : x = (a, w) ∨ x ∈ m := by
  induction m with
  | nil => simpa [dramPut] using h
  | cons y ys ih =>
    obtain ⟨k, v⟩ := y
    simp only [dramPut] at h
    split at h
    · simpa using h
    · split at h
      · rcases List.mem_cons.mp h with h | h
        · exact .inl h
        · exact .inr (List.mem_cons_of_mem _ h)
      · rcases List.mem_cons.mp h with h | h
        · exact .inr (by simp [h])
        · rcases ih h with h | h
          · exact .inl h
          · exact .inr (List.mem_cons_of_mem _ h)

/-- A write keeps the canonical form. -/
theorem dramWf_dramPut {m : List (Nat × Codeword)} (h : dramWf m = true) (a : Nat) (w : Codeword) :
    dramWf (dramPut m a w) = true := by
  induction m with
  | nil => rfl
  | cons y ys ih =>
    obtain ⟨k, v⟩ := y
    have hk := dramWf_cons.mp h
    simp only [dramPut]
    split
    · next h1 =>
      refine dramWf_cons.mpr ⟨h, ?_⟩
      intro x hx
      rcases List.mem_cons.mp hx with e | e
      · rw [e]; exact h1
      · exact lt_trans h1 (hk.2 x e)
    · split
      · next e => subst e; exact dramWf_cons.mpr hk
      · next h1 h2 =>
        refine dramWf_cons.mpr ⟨ih hk.1, ?_⟩
        intro x hx
        rcases mem_dramPut hx with e | e
        · rw [e]; simp only; omega
        · exact hk.2 x e

/-- The image after the codewords of a list have been written as a plan gives them. -/
theorem dramWf_foldl_plan (plan : Vector CwWrite 8) (n : Nat) (l : List CwIndex) (m : List (Nat × Codeword))
    (h : dramWf m = true) :
    dramWf (l.foldl (fun mem i =>
      match (plan.get i).content with
      | some w => dramPut mem (cwAddress n i) w
      | none   => mem) m) = true := by
  induction l generalizing m with
  | nil => exact h
  | cons i is ih =>
    simp only [List.foldl_cons]
    apply ih
    split
    · exact dramWf_dramPut h _ _
    · exact h

/-- A write of a line keeps the canonical form. -/
theorem Channel.dramWf_writeLine {c : Channel} (h : dramWf c.dram = true) (loc : Loc) (plan : Vector CwWrite 8) :
    dramWf (c.writeLine loc plan).dram = true :=
  dramWf_foldl_plan plan _ _ _ h

theorem cwAddress_inj {n m : Nat} {i j : CwIndex} : cwAddress n i = cwAddress m j ↔ n = m ∧ i = j := by
  unfold cwAddress
  constructor
  · intro h
    have := i.isLt
    have := j.isLt
    exact ⟨by omega, Fin.ext (by omega)⟩
  · rintro ⟨rfl, rfl⟩
    rfl

theorem dramGet_foldl_plan (plan : Vector CwWrite 8) (n a : Nat) (l : List CwIndex) (m : List (Nat × Codeword))
    (hl : l.Nodup) :
    dramGet (l.foldl (fun mem i =>
      match (plan.get i).content with
      | some w => dramPut mem (cwAddress n i) w
      | none   => mem) m) a =
      match l.find? (fun i => decide (cwAddress n i = a) && (plan.get i).content.isSome) with
      | some i => (plan.get i).content
      | none   => dramGet m a := by
  induction l generalizing m with
  | nil => rfl
  | cons i is ih =>
    have hn := List.nodup_cons.mp hl
    simp only [List.foldl_cons, List.find?_cons]
    by_cases hc : (plan.get i).content.isSome = true
    · obtain ⟨w, hw⟩ := Option.isSome_iff_exists.mp hc
      rw [hw]
      simp only
      rw [ih _ hn.2]
      by_cases ha : cwAddress n i = a
      · have hf : is.find? (fun j => decide (cwAddress n j = a) && (plan.get j).content.isSome) = none := by
          apply List.find?_eq_none.mpr
          intro j hj hx
          simp only [Bool.and_eq_true, decide_eq_true_eq] at hx
          have := (cwAddress_inj.mp (hx.1.trans ha.symm)).2
          exact hn.1 (this ▸ hj)
        rw [hf]
        simp [ha, hw, dramGet_dramPut]
      · simp [ha, dramGet_dramPut]
    · rw [Option.not_isSome_iff_eq_none] at hc
      rw [hc]
      simp only [Option.isSome_none, Bool.and_false]
      exact ih _ hn.2

/-- What a codeword address holds after a write of a line: what the plan writes there, else what it held. -/
theorem Channel.dramGet_writeLine (c : Channel) (loc : Loc) (plan : Vector CwWrite 8)
    (a : Nat) :
    dramGet (c.writeLine loc plan).dram a =
      match (List.finRange 8).find? (fun i => decide (cwAddress (c.physical loc) i = a) &&
        (plan.get i).content.isSome) with
      | some i => (plan.get i).content
      | none   => dramGet c.dram a :=
  dramGet_foldl_plan plan _ a _ _ (List.nodup_finRange 8)

/-- A write of a line is read back. -/
theorem Channel.dramGet_writeLine_same (c : Channel) (loc : Loc) (plan : Vector CwWrite 8)
    (i : CwIndex) (w : Codeword) (hw : (plan.get i).content = some w) :
    dramGet (c.writeLine loc plan).dram (cwAddress (c.physical loc) i) = some w := by
  rw [Channel.dramGet_writeLine]
  have hf : (List.finRange 8).find? (fun j => decide (cwAddress (c.physical loc) j = cwAddress (c.physical loc) i) &&
      (plan.get j).content.isSome) = some i := by
    have hs : ((List.finRange 8).find? (fun j =>
        decide (cwAddress (c.physical loc) j = cwAddress (c.physical loc) i) &&
          (plan.get j).content.isSome)).isSome = true := by
      rw [List.find?_isSome]
      exact ⟨i, List.mem_finRange i, by simp [hw]⟩
    obtain ⟨j, hj⟩ := Option.isSome_iff_exists.mp hs
    have := List.find?_some hj
    simp only [Bool.and_eq_true, decide_eq_true_eq] at this
    rw [hj, (cwAddress_inj.mp this.1).2]
  rw [hf]
  exact hw

/-- A write of a line leaves every other codeword address as it was. -/
theorem Channel.dramGet_writeLine_other (c : Channel) (loc : Loc) (plan : Vector CwWrite 8)
    (a : Nat) (ha : ∀ i : CwIndex, (plan.get i).content.isSome = true → a ≠ cwAddress (c.physical loc) i) :
    dramGet (c.writeLine loc plan).dram a = dramGet c.dram a := by
  rw [Channel.dramGet_writeLine]
  have hf : (List.finRange 8).find? (fun i => decide (cwAddress (c.physical loc) i = a) &&
      (plan.get i).content.isSome) = none := by
    apply List.find?_eq_none.mpr
    intro i _ hx
    simp only [Bool.and_eq_true, decide_eq_true_eq] at hx
    exact ha i hx.2 hx.1.symm
  rw [hf]

/-- The DRAM image after the power-on reset has the canonical form. -/
theorem State.reset_dramSound : State.reset.DramSound := by
  unfold State.DramSound
  decide +kernel

end Sys2Proof.Machine
end

