-- ==== Sys2Proof/Laws/Link.lean ====
section
/-! SUPPORT. How a transaction is answered: one lemma for each kind of reply, and the low periods that are no transaction. -/

namespace Sys2Proof.Machine

theorem State.transact_ready {s : State} (h : s.LinkReady) (f : State → State) : s.transact f = .next (f s) := by
  unfold State.transact
  rw [h.1, h.2]
  rfl

theorem State.transact_reset {s : State} (h : s.resetAsserted = true) (f : State → State) :
    s.transact f = .next { s with sdo := [] } := by
  unfold State.transact
  rw [h]
  rfl

theorem State.transact_ignoring {s : State} (h : s.resetAsserted = false) (k : s.shift = .ignoring)
    (f : State → State) :
    s.transact f = .next { s with shift := .empty, sdo := Config.sdoInIgnoredPeriod s.now } := by
  unfold State.transact
  rw [h, k]
  rfl

theorem Reply.respond_eq (r : Reply) (s : State) (e : Nat) (code : Byte) :
    r.respond s e code = r.state.withAnswer s e code r.result r.payload := rfl

/-- Everything that a good transaction can do. -/
theorem State.answer_ready {s : State} (h : s.LinkReady) (e : Nat) (code : Byte) (f : State → Reply) :
    s.answer e code f =
      .next (((f s).state.withAnswer s e code (f s).result (f s).payload).selectAll (f s).selects) :=
  State.transact_ready h _

theorem State.answer_refuse {s : State} (h : s.LinkReady) {e : Nat} {code : Byte} {f : State → Reply} {r : Result}
    (hf : f s = refuse s r) : s.answer e code f = .next (s.withAnswer s e code r 0) := by
  rw [State.answer_ready h, hf]
  rfl

theorem State.answer_reply {s t : State} (h : s.LinkReady) {e : Nat} {code : Byte} {f : State → Reply} {p : BitVec 160}
    (hf : f s = reply t p) : s.answer e code f = .next (t.withAnswer s e code .ok p) := by
  rw [State.answer_ready h, hf]
  rfl

theorem State.answer_plain {s t : State} (h : s.LinkReady) {e : Nat} {code : Byte} {f : State → Reply} {r : Result}
    {p : BitVec 160} (hf : f s = { state := t, result := r, payload := p, selects := [] }) :
    s.answer e code f = .next (t.withAnswer s e code r p) := by
  rw [State.answer_ready h, hf]
  rfl

theorem State.answer_select {s t : State} (h : s.LinkReady) {e : Nat} {code : Byte} {f : State → Reply} {r : Result}
    {p : BitVec 160} {ch : ChanId} (hf : f s = { state := t, result := r, payload := p, selects := [ch] }) :
    s.answer e code f = .next ((t.withAnswer s e code r p).select ch) := by
  rw [State.answer_ready h, hf]
  simp only [State.selectAll, List.foldl_cons, List.foldl_nil]

@[simp] theorem okOrClamped_ne (a b : Nat) :
    okOrClamped (decide (a ≠ b)) = if a = b then .ok else .clamped := by
  unfold okOrClamped
  by_cases h : a = b <;> simp [h]

theorem withRecord_none {s : State} {ch : ChanId} {n : BitVec 32} (h : s.rec? ch n.toNat = none)
    (f : ChanId → Record → Reply) : withRecord s (BitVec.ofNat 8 ch.val) n f = refuse s .notFound := by
  unfold withRecord
  rw [channelArg_ofNat]
  simp only [h]

theorem withRecord_some {s : State} {ch : ChanId} {n : BitVec 32} {r : Record} (h : s.rec? ch n.toNat = some r)
    (f : ChanId → Record → Reply) : withRecord s (BitVec.ofNat 8 ch.val) n f = f ch r := by
  unfold withRecord
  rw [channelArg_ofNat]
  simp only [h]

theorem withRecord_range {s : State} {b : Byte} (h : 4 ≤ b.toNat) (n : BitVec 32) (f : ChanId → Record → Reply) :
    withRecord s b n f = refuse s .range := by
  unfold withRecord
  rw [channelArg_of_four_le h]

@[simp] theorem onChannel_ofNat (s : State) (ch : ChanId) (f : ChanId → Reply) :
    onChannel s (BitVec.ofNat 8 ch.val) f = f ch := by
  unfold onChannel
  rw [channelArg_ofNat]

theorem onChannel_range {s : State} {b : Byte} (h : 4 ≤ b.toNat) (f : ChanId → Reply) :
    onChannel s b f = refuse s .range := by
  unfold onChannel
  rw [channelArg_of_four_le h]

@[simp] theorem onSlot_ofNat (s : State) (ch : ChanId) (i : SlotId) (f : ChanId → SlotId → Reply) :
    onSlot s (BitVec.ofNat 8 ch.val) (BitVec.ofNat 16 i.val) f = f ch i := by
  unfold onSlot
  rw [channelArg_ofNat, slotArg_ofNat]

theorem onSlot_range {s : State} {b : Byte} (h : 4 ≤ b.toNat) (n : BitVec 16) (f : ChanId → SlotId → Reply) :
    onSlot s b n f = refuse s .range := by
  unfold onSlot
  rw [channelArg_of_four_le h]

/-- Every row of the maintenance link is one transaction. -/
theorem exec_onLink {i : Instr} (h : onLink i = true) :
    ∃ f : State → State, ∀ s : State, exec i s = s.transact f := by
  cases i with
  | linkShort => exact ⟨_, fun s => (exec_linkShort s ..).trans (by unfold execLinkShort; rfl)⟩
  | linkCheckError => exact ⟨_, fun s => (exec_linkCheckError s ..).trans (by unfold execLinkCheckError; rfl)⟩
  | unknown => exact ⟨_, fun s => (exec_unknown s ..).trans (by unfold execUnknown State.answer; rfl)⟩
  | nop => exact ⟨_, fun s => (exec_nop s ..).trans (by unfold execNop State.answer; rfl)⟩
  | status => exact ⟨_, fun s => (exec_status s ..).trans (by unfold execStatus State.answer; rfl)⟩
  | getSetting => exact ⟨_, fun s => (exec_getSetting s ..).trans (by unfold execGetSetting State.answer; rfl)⟩
  | setSetting => exact ⟨_, fun s => (exec_setSetting s ..).trans (by unfold execSetSetting State.answer; rfl)⟩
  | setPhysLines => exact ⟨_, fun s => (exec_setPhysLines s ..).trans (by unfold execSetPhysLines State.answer; rfl)⟩
  | setCadenceSource => exact ⟨_, fun s => (exec_setCadenceSource s ..).trans (by unfold execSetCadenceSource State.answer; rfl)⟩
  | setCadenceTimeout => exact ⟨_, fun s => (exec_setCadenceTimeout s ..).trans (by unfold execSetCadenceTimeout State.answer; rfl)⟩
  | setFocusInterval => exact ⟨_, fun s => (exec_setFocusInterval s ..).trans (by unfold execSetFocusInterval State.answer; rfl)⟩
  | setAlertMask => exact ⟨_, fun s => (exec_setAlertMask s ..).trans (by unfold execSetAlertMask State.answer; rfl)⟩
  | softReset => exact ⟨_, fun s => (exec_softReset s ..).trans (by unfold execSoftReset State.answer; rfl)⟩
  | lookup => exact ⟨_, fun s => (exec_lookup s ..).trans (by unfold execLookup State.answer; rfl)⟩
  | next => exact ⟨_, fun s => (exec_next s ..).trans (by unfold execNext State.answer; rfl)⟩
  | adopt => exact ⟨_, fun s => (exec_adopt s ..).trans (by unfold execAdopt State.answer; rfl)⟩
  | pin => exact ⟨_, fun s => (exec_pin s ..).trans (by unfold execPin State.answer; rfl)⟩
  | unpin => exact ⟨_, fun s => (exec_unpin s ..).trans (by unfold execUnpin State.answer; rfl)⟩
  | retire => exact ⟨_, fun s => (exec_retire s ..).trans (by unfold execRetire State.answer; rfl)⟩
  | release => exact ⟨_, fun s => (exec_release s ..).trans (by unfold execRelease State.answer; rfl)⟩
  | clearHold => exact ⟨_, fun s => (exec_clearHold s ..).trans (by unfold execClearHold State.answer; rfl)⟩
  | spare => exact ⟨_, fun s => (exec_spare s ..).trans (by unfold execSpare State.answer; rfl)⟩
  | cancel => exact ⟨_, fun s => (exec_cancel s ..).trans (by unfold execCancel State.answer; rfl)⟩
  | spareQuery => exact ⟨_, fun s => (exec_spareQuery s ..).trans (by unfold execSpareQuery State.answer; rfl)⟩
  | spareSlot => exact ⟨_, fun s => (exec_spareSlot s ..).trans (by unfold execSpareSlot State.answer; rfl)⟩
  | spareRestore => exact ⟨_, fun s => (exec_spareRestore s ..).trans (by unfold execSpareRestore State.answer; rfl)⟩
  | regionSet => exact ⟨_, fun s => (exec_regionSet s ..).trans (by unfold execRegionSet State.answer; rfl)⟩
  | regionGet => exact ⟨_, fun s => (exec_regionGet s ..).trans (by unfold execRegionGet State.answer; rfl)⟩
  | classSet => exact ⟨_, fun s => (exec_classSet s ..).trans (by unfold execClassSet State.answer; rfl)⟩
  | classGet => exact ⟨_, fun s => (exec_classGet s ..).trans (by unfold execClassGet State.answer; rfl)⟩
  | channelFill => exact ⟨_, fun s => (exec_channelFill s ..).trans (by unfold execChannelFill State.answer; rfl)⟩
  | channelOnline => exact ⟨_, fun s => (exec_channelOnline s ..).trans (by unfold execChannelOnline State.answer; rfl)⟩
  | channelOffline => exact ⟨_, fun s => (exec_channelOffline s ..).trans (by unfold execChannelOffline State.answer; rfl)⟩
  | patrolStart => exact ⟨_, fun s => (exec_patrolStart s ..).trans (by unfold execPatrolStart State.answer; rfl)⟩
  | patrolHalt => exact ⟨_, fun s => (exec_patrolHalt s ..).trans (by unfold execPatrolHalt State.answer; rfl)⟩
  | setPhase => exact ⟨_, fun s => (exec_setPhase s ..).trans (by unfold execSetPhase State.answer; rfl)⟩
  | profileSet => exact ⟨_, fun s => (exec_profileSet s ..).trans (by unfold execProfileSet State.answer; rfl)⟩
  | profileGet => exact ⟨_, fun s => (exec_profileGet s ..).trans (by unfold execProfileGet State.answer; rfl)⟩
  | captureRead => exact ⟨_, fun s => (exec_captureRead s ..).trans (by unfold execCaptureRead State.answer; rfl)⟩
  | captureClear => exact ⟨_, fun s => (exec_captureClear s ..).trans (by unfold execCaptureClear State.answer; rfl)⟩
  | countsRead => exact ⟨_, fun s => (exec_countsRead s ..).trans (by unfold execCountsRead State.answer; rfl)⟩
  | countsClear => exact ⟨_, fun s => (exec_countsClear s ..).trans (by unfold execCountsClear State.answer; rfl)⟩
  | alertRead => exact ⟨_, fun s => (exec_alertRead s ..).trans (by unfold execAlertRead State.answer; rfl)⟩
  | alertAck => exact ⟨_, fun s => (exec_alertAck s ..).trans (by unfold execAlertAck State.answer; rfl)⟩
  | _ => exact Bool.noConfusion h

/-! ### Operations that need their lines -/

theorem State.atLines_next {s : State} {ch : ChanId} {locs : List Loc} (h : ∀ l ∈ locs, (s.chan ch).inDram l = true)
    (t : State) : s.atLines ch locs t = .next t := by
  unfold State.atLines
  rw [if_pos (by simpa [List.all_eq_true] using h)]

theorem State.atLines_cases {s t u : State} {ch : ChanId} {locs : List Loc} (h : s.atLines ch locs t = .next u) :
    u = t ∧ ∀ l ∈ locs, (s.chan ch).inDram l = true := by
  unfold State.atLines at h
  split at h
  · next k => exact ⟨by injection h with h; exact h.symm, by simpa [List.all_eq_true] using k⟩
  · cases h

end Sys2Proof.Machine
end

