-- ==== Sys2Proof/Laws/Walk.lean ====
section
/-! SUPPORT. Pass ends, the walk of a Patrol Engine, slot starts and frame starts: what each can change, once. -/

namespace Sys2Proof.Machine

/-! ### The least line of a class -/

/-- What `leastFrom` finds is the least line that passes the test, when the test can begin to hold only at `start` or at an
edge. -/
theorem leastFrom_some {start bound l : Nat} {edges : List Nat} {test : Nat → Bool}
    (h : leastFrom start bound edges test = some l) :
    start ≤ l ∧ l < bound ∧ test l = true := by
  unfold leastFrom at h
  have := List.min?_mem h
  simp only [List.mem_filter, Bool.and_eq_true, decide_eq_true_eq] at this
  exact ⟨this.2.1.1, this.2.1.2, this.2.2⟩

/-- `leastFrom` finds the least line that passes the test. -/
theorem leastFrom_eq_some {start bound l : Nat} {edges : List Nat} {test : Nat → Bool}
    (he : ∀ n, start < n → test n = true → test (n - 1) = false → n ∈ edges)
    (h1 : start ≤ l) (h2 : l < bound) (h3 : test l = true) (h4 : ∀ k, start ≤ k → k < l → test k = false) :
    leastFrom start bound edges test = some l := by
  unfold leastFrom
  have hl : l ∈ start :: edges := by
    rcases Nat.eq_or_lt_of_le h1 with e | e
    · exact e ▸ List.mem_cons_self
    · exact List.mem_cons_of_mem _ (he l e h3 (h4 (l - 1) (by omega) (by omega)))
  rw [List.min?_eq_some_iff]
  constructor
  · simp [hl, h1, h2, h3]
  · intro b hb
    simp only [List.mem_filter, Bool.and_eq_true, decide_eq_true_eq] at hb
    by_contra hlt
    have := h4 b hb.2.1.1 (by omega)
    rw [hb.2.2] at this
    cases this

/-- `leastFrom` finds nothing when no line from `start` up and below `bound` passes the test. -/
theorem leastFrom_eq_none {start bound : Nat} {edges : List Nat} {test : Nat → Bool}
    (h : ∀ k, start ≤ k → k < bound → test k = false) : leastFrom start bound edges test = none := by
  unfold leastFrom
  rw [List.min?_eq_none_iff, List.filter_eq_nil_iff]
  intro a _
  simp only [Bool.and_eq_true, decide_eq_true_eq, not_and, Bool.not_eq_true, and_imp]
  exact h a

/-- A line at which a channel's class differs from that of the line before it is an edge of a window. -/
theorem mem_classEdges {ws : Vector Window 8} {ch : ChanId} {n : Nat} (h0 : 0 < n)
    (h : classIn ws ch n ≠ classIn ws ch (n - 1)) : n ∈ classEdges ws := by
  by_contra hc
  apply h
  have hw : ∀ w ∈ ws.toList, w.covers ch n = w.covers ch (n - 1) := by
    intro w hw
    have hx : n ≠ w.first ∧ n ≠ w.last + 1 := by
      constructor <;> intro e <;> apply hc <;> unfold classEdges <;> rw [List.mem_flatMap] <;>
        exact ⟨w, hw, by simp [e]⟩
    have e1 : decide (w.first ≤ n) = decide (w.first ≤ n - 1) := by rw [decide_eq_decide]; omega
    have e2 : decide (n ≤ w.last) = decide (n - 1 ≤ w.last) := by rw [decide_eq_decide]; omega
    simp [Window.covers, e1, e2]
  have hf : ∀ l : List Window, (∀ w ∈ l, w.covers ch n = w.covers ch (n - 1)) →
      l.find? (fun w => w.covers ch n) = l.find? (fun w => w.covers ch (n - 1)) := by
    intro l
    induction l with
    | nil => intro _; rfl
    | cons x xs ih =>
      intro hl
      simp only [List.find?_cons]
      rw [hl x List.mem_cons_self, ih (fun w hw => hl w (List.mem_cons_of_mem _ hw))]
  unfold classIn
  rw [hf _ hw]

/-- The first patrolled line from `start` up (R67, R105). -/
theorem nextPatrolled_eq_some {ws : Vector Window 8} {ch : ChanId} {visible start l : Nat} (h1 : start ≤ l)
    (h2 : l < visible) (h3 : classIn ws ch l ≠ .unscrubbed)
    (h4 : ∀ k, start ≤ k → k < l → classIn ws ch k = .unscrubbed) :
    nextPatrolled ws ch visible start = some l := by
  have hp : ∀ c : MemClass, c.patrolled = true ↔ c ≠ .unscrubbed := by intro c; cases c <;> decide
  apply leastFrom_eq_some _ h1 h2 ((hp _).mpr h3)
  · intro k hk1 hk2
    rw [h4 k hk1 hk2]
    rfl
  · intro n hn h5 h6
    apply mem_classEdges (by omega)
    intro e
    rw [e, h6] at h5
    cases h5

theorem nextPatrolled_some {ws : Vector Window 8} {ch : ChanId} {visible start l : Nat}
    (h : nextPatrolled ws ch visible start = some l) :
    start ≤ l ∧ l < visible ∧ (classIn ws ch l).patrolled = true := leastFrom_some h

/-! ### Pass ends and coming to a line -/

theorem State.endPass_onlyChannel (s : State) (ch : ChanId) : s.OnlyChannel (s.endPass ch) ch := by
  unfold State.endPass
  have h1 : s.OnlyChannel ((s.decay ch).modChan ch (fun c => c.modPatrol PatrolEngine.endPass)) ch :=
    (State.onlyChannel_table s ch _).trans (State.onlyChannel_modChan _ ch _)
  dsimp only
  split
  · exact h1.trans (State.onlyChannel_raise _ ch _)
  · exact h1

theorem State.endPass_chan (s : State) (ch : ChanId) :
    (s.endPass ch).chan ch = { s.chan ch with patrol := (s.chan ch).patrol.endPass } := by
  unfold State.endPass
  dsimp only
  split <;> simp [Channel.modPatrol]

theorem State.endPass_causes (s : State) (ch : ChanId) :
    (s.endPass ch).causes =
      if (s.chan ch).patrol.mode = .single then s.causes ||| Cause.passDone.single else s.causes := by
  unfold State.endPass
  dsimp only
  split <;> simp

theorem State.endPass_table (s : State) (ch : ChanId) :
    (s.endPass ch).table = s.table.filterMap (s.decayRecord ch) := by
  unfold State.endPass
  dsimp only
  split <;> rfl

theorem State.comeTo_some {s : State} {ch : ChanId} {n l : Nat}
    (h : nextPatrolled s.windows ch (s.chan ch).visible n = some l) :
    s.comeTo ch n = s.modChan ch (fun c => c.modPatrol (fun p => { p with position := l })) := by
  unfold State.comeTo
  rw [h]

theorem State.comeTo_none {s : State} {ch : ChanId} {n : Nat}
    (h : nextPatrolled s.windows ch (s.chan ch).visible n = none) : s.comeTo ch n = s.endPass ch := by
  unfold State.comeTo
  rw [h]

theorem State.comeTo_onlyChannel (s : State) (ch : ChanId) (n : Nat) : s.OnlyChannel (s.comeTo ch n) ch := by
  unfold State.comeTo
  split
  · exact State.onlyChannel_modChan _ _ _
  · exact State.endPass_onlyChannel _ _

theorem State.comeTo_chan (s : State) (ch : ChanId) (n : Nat) :
    (s.comeTo ch n).chan ch = { s.chan ch with patrol := ((s.comeTo ch n).chan ch).patrol } := by
  unfold State.comeTo
  split
  · simp [Channel.modPatrol]
  · rw [State.endPass_chan]

theorem State.comeTo_causes (s : State) (ch : ChanId) (n : Nat) :
    (s.comeTo ch n).causes = s.causes ∨ (s.comeTo ch n).causes = s.causes ||| Cause.passDone.single := by
  unfold State.comeTo
  split
  · exact .inl rfl
  · rw [State.endPass_causes]
    split
    · exact .inr rfl
    · exact .inl rfl

/-! ### Slot starts and frame starts -/

/-- What the end of a pass-start wait can change: one Patrol Engine, the table and PASS_DONE. -/
theorem State.endWait_spec (s : State) (ch : ChanId) :
    s.OnlyChannel (s.endWait ch) ch ∧
      (s.endWait ch).chan ch = { s.chan ch with patrol := ((s.endWait ch).chan ch).patrol } ∧
      ((s.endWait ch).causes = s.causes ∨ (s.endWait ch).causes = s.causes ||| Cause.passDone.single) := by
  unfold State.endWait
  split
  · refine ⟨(State.onlyChannel_modChan _ _ _).trans (State.comeTo_onlyChannel _ _ _), ?_, ?_⟩
    · rw [State.comeTo_chan]
      simp [Channel.modPatrol]
    · rcases State.comeTo_causes (s.modChan ch (fun c => c.modPatrol (fun p => { p with startWait := false }))) ch 0
        with h | h <;> rw [h] <;> simp
  · exact ⟨State.OnlyChannel.refl _ _, rfl, .inl rfl⟩

/-- What the pass-start waits that a slot start ends can change, channel by channel. -/
theorem State.endWaits_spec (l : List ChanId) (s t : State) (h : t = l.foldl State.endWait s) :
    { t with table := s.table, chans := s.chans, causes := s.causes } = s ∧
      (∀ c : ChanId, t.chan c = { s.chan c with patrol := (t.chan c).patrol }) ∧
      (∀ c : ChanId, c ∉ l → t.chan c = s.chan c) ∧
      (t.causes = s.causes ∨ t.causes = s.causes ||| Cause.passDone.single) := by
  induction l generalizing s with
  | nil => subst h; exact ⟨rfl, fun _ => rfl, fun _ _ => rfl, .inl rfl⟩
  | cons x xs ih =>
    obtain ⟨h1, h2, h3, h4⟩ := ih (s.endWait x) h
    obtain ⟨k1, k2, k3⟩ := State.endWait_spec s x
    refine ⟨?_, ?_, ?_, ?_⟩
    · have := k1.1
      rw [← this, ← h1]
    · intro c
      rw [h2 c]
      by_cases hc : c = x
      · subst hc; rw [k2]
      · rw [k1.2 c hc]
    · intro c hc
      rw [List.mem_cons, not_or] at hc
      rw [h3 c hc.2, k1.2 c hc.1]
    · rcases h4 with h | h <;> rcases k3 with k | k <;> rw [h, k]
      · exact .inl rfl
      · exact .inr rfl
      · exact .inr rfl
      · exact .inr (by rw [BitVec.or_assoc, BitVec.or_self])

/-- Where a Patrol Engine comes to depends on its own channel and the windows alone. -/
theorem State.comeTo_chan_congr {s t : State} {ch : ChanId} (hw : t.windows = s.windows) (hc : t.chan ch = s.chan ch)
    (n : Nat) : (t.comeTo ch n).chan ch = (s.comeTo ch n).chan ch := by
  unfold State.comeTo
  rw [hw, hc]
  split
  · rw [State.chan_modChan_same, State.chan_modChan_same, hc]
  · rw [State.endPass_chan, State.endPass_chan, hc]

theorem State.endWait_chan_congr {s t : State} {ch : ChanId} (hw : t.windows = s.windows) (hc : t.chan ch = s.chan ch) :
    (t.endWait ch).chan ch = (s.endWait ch).chan ch := by
  unfold State.endWait
  rw [hc]
  split
  · refine State.comeTo_chan_congr (s := s.modChan ch _) (t := t.modChan ch _) hw ?_ 0
    rw [State.chan_modChan_same, State.chan_modChan_same, hc]
  · exact hc

/-- A channel after all pass-start waits have been looked at is as after its own. -/
theorem State.endWaits_chan {l : List ChanId} (hl : l.Nodup) (s : State) {c : ChanId} (hc : c ∈ l) :
    (l.foldl State.endWait s).chan c = (s.endWait c).chan c := by
  induction l generalizing s with
  | nil => cases hc
  | cons x xs ih =>
    have hn := List.nodup_cons.mp hl
    simp only [List.foldl_cons]
    rcases List.mem_cons.mp hc with e | e
    · subst e
      exact (State.endWaits_spec xs (s.endWait c) _ rfl).2.2.1 c hn.1
    · rw [ih hn.2 _ e]
      have hx : c ≠ x := fun h => hn.1 (h ▸ e)
      have h1 := (State.endWait_spec s x).1
      exact State.endWait_chan_congr h1.windows_eq (h1.2 c hx)

/-- The state in which a slot start has set its items and the budgets, before any pass-start wait ends. -/
def State.slotOpened (s : State) (slot : Nat) : State :=
  ({ s with cadence := { s.cadence with slotIndex := some slot, slotEnd := some (s.now + s.settings.slotLen) } }
    ).modAllChans (fun c => c.withBudget
      (c.slotBudget s.settings.yieldLevel (s.profile s.cadence.activePhase) slot))

theorem State.slotStart_eq (s : State) (slot : Nat) :
    s.slotStart slot = (List.finRange 4).foldl State.endWait (s.slotOpened slot) := rfl

theorem State.slotStart_chan (s : State) (slot : Nat) (c : ChanId) :
    (s.slotStart slot).chan c = ((s.slotOpened slot).endWait c).chan c := by
  rw [State.slotStart_eq]
  exact State.endWaits_chan (List.nodup_finRange 4) _ (List.mem_finRange c)

/-- Everything that a slot start can change (R125, R134). -/
theorem State.slotStart_spec (s : State) (slot : Nat) :
    { s.slotStart slot with table := s.table, chans := s.chans, causes := s.causes } =
        { s with cadence := { s.cadence with slotIndex := some slot, slotEnd := some (s.now + s.settings.slotLen) } } ∧
      (∀ c : ChanId, (s.slotStart slot).chan c =
        { s.chan c with
          budget := s.budgetOf c s.cadence.activePhase slot, patrol := ((s.slotStart slot).chan c).patrol }) ∧
      ((s.slotStart slot).causes = s.causes ∨ (s.slotStart slot).causes = s.causes ||| Cause.passDone.single) := by
  obtain ⟨h1, h2, _, h4⟩ := State.endWaits_spec (List.finRange 4) (s.slotOpened slot) _ (s.slotStart_eq slot)
  refine ⟨?_, ?_, h4⟩
  · have e : { s.slotOpened slot with table := s.table, chans := s.chans, causes := s.causes } =
      { s with cadence := { s.cadence with slotIndex := some slot, slotEnd := some (s.now + s.settings.slotLen) } } := rfl
    rw [← e, ← h1]
  · intro c
    rw [h2 c]
    rw [State.slotOpened, State.chan_modAllChans]
    rfl

end Sys2Proof.Machine
end

