-- ==== Sys2Proof/Laws/Ops.lean ====
section
/-! SUPPORT. What each shared operation can do, once: selections, migrations' starts and ends, deliveries, captures and the
writes' issues. -/

namespace Sys2Proof.Machine

/-! ### Writes dropped and slots that change -/

theorem Channel.dropWrites_held (c : Channel) (p : WbEntry → Bool) (h : c.patrol.held = []) :
    (c.dropWrites p).patrol = c.patrol := by
  obtain ⟨_, _, _, _, _, _, _, _, _, _, _, _, ⟨_, _, _, _, _, _, _, _, _⟩, _, _, _, _, _, _, _⟩ := c
  simp only at h
  subst h
  unfold Channel.dropWrites
  split <;> simp [offerHeld]

/-- The Write-back Queue after some writes are dropped, with no offer held. -/
theorem Channel.dropWrites_wbq (c : Channel) (p : WbEntry → Bool) (h : c.patrol.held = []) :
    (c.dropWrites p).wbq = c.wbq.filter (fun e => !p e) := by
  unfold Channel.dropWrites
  split
  · simp [h, offerHeld]
  · next hn =>
    simp only
    rw [List.filter_eq_self.mpr]
    intro e he
    simp only [Bool.not_eq_true, List.any_eq_false] at hn
    simpa using hn e he

/-- A slot that becomes ALLOCATED drops no write. -/
theorem Channel.setSlot_allocated (c : Channel) (i : SlotId) :
    c.setSlot i .allocated = { c with
      slots := c.slots.set i.val .allocated
      exhausted := false
      flights := c.flights.map (fun f => if f.loc = .slot i then { f with moved := true } else f) } := rfl

theorem Channel.lowestFree_eq_some {c : Channel} {i : SlotId} :
    c.lowestFree = some i ↔ c.slots.get i = .free ∧ ∀ j : SlotId, j < i → c.slots.get j ≠ .free := by
  unfold Channel.lowestFree
  constructor
  · intro h
    refine ⟨by simpa using List.find?_some h, ?_⟩
    intro j hj hf
    obtain ⟨_, as, bs, hl, hn⟩ := List.find?_eq_some_iff_append.mp h
    have hp : (List.finRange 512).Pairwise (· < ·) := List.pairwise_lt_finRange 512
    have hm : j ∈ as ++ i :: bs := hl ▸ List.mem_finRange j
    rw [hl] at hp
    rcases List.mem_append.mp hm with h1 | h1
    · have := hn j h1
      simp [hf] at this
    · rcases List.mem_cons.mp h1 with h2 | h2
      · subst h2; exact absurd hj (lt_irrefl _)
      · exact absurd (List.rel_of_pairwise_cons (List.pairwise_append.mp hp).2.1 h2) (not_lt.mpr hj.le)
  · rintro ⟨h1, h2⟩
    cases hx : (List.finRange 512).find? (fun i => c.slots.get i == .free) with
    | none =>
      have := List.find?_eq_none.mp hx i (List.mem_finRange i)
      simp [h1] at this
    | some k =>
      have hk : c.slots.get k = .free := by simpa using List.find?_some hx
      obtain ⟨_, as, bs, hl, hn⟩ := List.find?_eq_some_iff_append.mp hx
      have hm : i ∈ as ++ k :: bs := hl ▸ List.mem_finRange i
      have hp : (List.finRange 512).Pairwise (· < ·) := List.pairwise_lt_finRange 512
      rw [hl] at hp
      rcases List.mem_append.mp hm with h3 | h3
      · have := hn i h3
        simp [h1] at this
      · rcases List.mem_cons.mp h3 with h4 | h4
        · rw [h4]
        · have := List.rel_of_pairwise_cons (List.pairwise_append.mp hp).2.1 h4
          exact absurd hk (h2 k this)

theorem Channel.lowestFree_eq_none {c : Channel} : c.lowestFree = none ↔ ∀ i : SlotId, c.slots.get i ≠ .free := by
  unfold Channel.lowestFree
  rw [List.find?_eq_none]
  simp

/-! ### Selections -/

/-- Everything that the start of a migration changes (R149). -/
theorem State.startMigration_spec (s : State) (r : Record) (i : SlotId) (b : Bool) :
    s.OnlyChannel (s.startMigration r i b) r.key.channel ∧
      (s.startMigration r i b).causes = s.causes ∧
      (s.startMigration r i b).table = updateRec s.table r.key (fun x => x.enterSparing i b) ∧
      (s.startMigration r i b).chan r.key.channel =
        { (s.chan r.key.channel).setSlot i .allocated with
          migration := some (Migration.start r.key.line i r.location) } := by
  refine ⟨?_, rfl, rfl, ?_⟩
  · exact (State.onlyChannel_modRec _ _ _ _ _).trans (State.onlyChannel_modChan _ _ _)
  · unfold State.startMigration
    rw [State.chan_modChan_same]
    rfl

theorem State.refuseSlots_spec (s : State) (ch : ChanId) :
    s.OnlyChannel (s.refuseSlots ch) ch ∧ (s.refuseSlots ch).table = s.table ∧
      ((s.refuseSlots ch).causes = s.causes ∨ (s.refuseSlots ch).causes = s.causes ||| Cause.spareExhausted.single) ∧
      (s.refuseSlots ch).chan ch = { s.chan ch with exhausted := true } := by
  unfold State.refuseSlots
  split
  · next h =>
    refine ⟨State.OnlyChannel.refl _ _, rfl, .inl rfl, ?_⟩
    conv_rhs => rw [← h]
  · refine ⟨(State.onlyChannel_raise _ _ _).trans (State.onlyChannel_modChan _ _ _), rfl, .inr rfl, ?_⟩
    rw [State.chan_modChan_same]
    rfl

/-- The candidate that a selection takes, if there is one. -/
def State.chosen (s : State) (ch : ChanId) : Option Record :=
  firstBy Record.selectsBefore (s.table.filter (s.isCandidate ch))

/-- A busy unit selects nothing. -/
theorem State.select_busy {s : State} {ch : ChanId} (h : (s.chan ch).migration.isSome = true) : s.select ch = s := by
  obtain ⟨m, hm⟩ := Option.isSome_iff_exists.mp h
  unfold State.select
  rw [hm]

/-- An idle unit's selection, by the candidate and the lowest FREE slot. -/
theorem State.select_idle {s : State} {ch : ChanId} (h : (s.chan ch).migration = none) :
    s.select ch =
      match s.chosen ch with
      | none => s
      | some r =>
          match (s.chan ch).lowestFree with
          | some i => s.startMigration r i false
          | none   => s.refuseSlots ch := by
  unfold State.select State.chosen
  generalize (s.chan ch).migration = m at h
  subst h
  cases firstBy Record.selectsBefore (s.table.filter (s.isCandidate ch)) with
  | none => rfl
  | some r => cases (s.chan ch).lowestFree <;> rfl

/-- What `firstBy` finds is in the list. -/
theorem firstBy_mem {α : Type} {before : α → α → Bool} {l : List α} {r : α} (h : firstBy before l = some r) : r ∈ l := by
  unfold firstBy at h
  have key : ∀ (l : List α) (b : Option α), l.foldl (fun best r =>
      match best with
      | none => some r
      | some b => if before r b then some r else some b) b = some r → r ∈ l ∨ b = some r := by
    intro l
    induction l with
    | nil => intro b hb; exact .inr hb
    | cons x xs ih =>
      intro b hb
      rw [List.foldl_cons] at hb
      rcases ih _ hb with k | k
      · exact .inl (List.mem_cons_of_mem _ k)
      · cases b with
        | none => simp only [Option.some.injEq] at k; exact .inl (k ▸ List.mem_cons_self)
        | some y =>
          simp only at k
          split at k
          · simp only [Option.some.injEq] at k; exact .inl (k ▸ List.mem_cons_self)
          · exact .inr k
  rcases key l none h with k | k
  · exact k
  · cases k

/-- `firstBy` finds the element that comes before every other. -/
theorem firstBy_eq_some {α : Type} {before : α → α → Bool} {l : List α} {r : α} (hr : r ∈ l)
    (h : ∀ q ∈ l, q ≠ r → before r q = true ∧ before q r = false) (hi : before r r = false) :
    firstBy before l = some r := by
  unfold firstBy
  have key : ∀ (l : List α) (b : Option α), (∀ q ∈ l, q ≠ r → before r q = true ∧ before q r = false) →
      (∀ y, b = some y → y ≠ r → before r y = true ∧ before y r = false) → (r ∈ l ∨ b = some r) →
      l.foldl (fun best r =>
        match best with
        | none => some r
        | some b => if before r b then some r else some b) b = some r := by
    intro l
    induction l with
    | nil =>
      intro b _ _ hm
      rcases hm with hm | hm
      · cases hm
      · exact hm
    | cons x xs ih =>
      intro b hl hb hm
      rw [List.foldl_cons]
      apply ih _ (fun q hq => hl q (List.mem_cons_of_mem _ hq))
      · intro y hy hne
        cases b with
        | none => simp only [Option.some.injEq] at hy; exact hl y (hy ▸ List.mem_cons_self) hne
        | some z =>
          simp only at hy
          split at hy
          · simp only [Option.some.injEq] at hy; exact hl y (hy ▸ List.mem_cons_self) hne
          · simp only [Option.some.injEq] at hy; exact hb y (by rw [hy]) hne
      · by_cases hx : x = r
        · right
          subst hx
          cases b with
          | none => rfl
          | some z =>
            by_cases hz : z = x
            · subst hz; simp
            · simp [(hb z rfl hz).1]
        · rcases hm with hm | hm
          · rcases List.mem_cons.mp hm with e | e
            · exact absurd e.symm hx
            · exact .inl e
          · right
            subst hm
            simp [(hl x List.mem_cons_self hx).2]
  exact key l none h (fun _ e => by cases e) (.inl hr)

theorem State.chosen_spec {s : State} {ch : ChanId} {r : Record} (h : s.chosen ch = some r) :
    r ∈ s.table ∧ s.isCandidate ch r = true ∧ r.key.channel = ch := by
  have hm := firstBy_mem h
  rw [List.mem_filter] at hm
  refine ⟨hm.1, hm.2, ?_⟩
  have := hm.2
  simp only [State.isCandidate, Bool.and_eq_true, decide_eq_true_eq] at this
  exact this.1.1.1.1

/-- Everything that a selection can change (R147 to R149): at its own channel the slots, the exhaustion flag, the reads' notes
of a slot that changed, and the migration. -/
theorem State.select_spec (s : State) (ch : ChanId) :
    s.OnlyChannel (s.select ch) ch ∧
      ((s.select ch).causes = s.causes ∨ (s.select ch).causes = s.causes ||| Cause.spareExhausted.single) ∧
      (s.select ch).chan ch = { s.chan ch with
        slots := ((s.select ch).chan ch).slots, exhausted := ((s.select ch).chan ch).exhausted
        flights := ((s.select ch).chan ch).flights, migration := ((s.select ch).chan ch).migration } ∧
      ((s.select ch).chan ch).flights.length = (s.chan ch).flights.length := by
  cases hm : (s.chan ch).migration with
  | some m =>
    rw [State.select_busy (by rw [hm]; rfl)]
    exact ⟨State.OnlyChannel.refl _ _, .inl rfl, rfl, rfl⟩
  | none =>
    rw [State.select_idle hm]
    cases hc : s.chosen ch with
    | none => exact ⟨State.OnlyChannel.refl _ _, .inl rfl, rfl, rfl⟩
    | some r =>
      have hk := (State.chosen_spec hc).2.2
      cases hf : (s.chan ch).lowestFree with
      | none =>
        obtain ⟨h1, h2, h3, h4⟩ := State.refuseSlots_spec s ch
        dsimp only
        refine ⟨h1, h3, ?_, ?_⟩ <;> rw [h4]
      | some i =>
        obtain ⟨h1, h2, h3, h4⟩ := State.startMigration_spec s r i false
        rw [hk] at h1 h4
        dsimp only
        refine ⟨h1, .inl h2, ?_, ?_⟩ <;> rw [h4, Channel.setSlot_allocated]
        simp

/-! ### Deliveries -/

/-- What a delivery's record part changes: the table and TABLE_FULL. -/
theorem State.record_spec (s : State) (ch : ChanId) (n : Nat) (src : ReadSource) (reps : Vector Report 8) :
    { (s.record ch n src reps).1 with table := s.table, causes := s.causes } = s ∧
      ((s.record ch n src reps).1.causes = s.causes ∨
        (s.record ch n src reps).1.causes = s.causes ||| Cause.tableFull.single) := by
  unfold State.record
  dsimp only
  split
  · exact ⟨rfl, .inl rfl⟩
  · split
    · exact ⟨rfl, .inl rfl⟩
    · exact ⟨rfl, .inr rfl⟩

theorem State.record_chan (s : State) (ch c : ChanId) (n : Nat) (src : ReadSource) (reps : Vector Report 8) :
    (s.record ch n src reps).1.chan c = s.chan c := by
  have h := congrArg (fun t => t.chan c) (State.record_spec s ch n src reps).1
  exact h

/-- Everything that a delivery can change (R22 to R27, R147). -/
theorem State.deliver_spec (s : State) (ch : ChanId) (n : Nat) (src : ReadSource) (reps : Vector Report 8) :
    s.OnlyChannel (s.deliver ch n src reps) ch ∧
      (∀ k : Cause, k ≠ .tableFull → k ≠ .spareExhausted →
        hasCause (s.deliver ch n src reps).causes k = hasCause s.causes k) ∧
      (s.deliver ch n src reps).chan ch = { s.chan ch with
        slots := ((s.deliver ch n src reps).chan ch).slots
        exhausted := ((s.deliver ch n src reps).chan ch).exhausted
        flights := ((s.deliver ch n src reps).chan ch).flights
        migration := ((s.deliver ch n src reps).chan ch).migration } ∧
      ((s.deliver ch n src reps).chan ch).flights.length = (s.chan ch).flights.length := by
  have hbit : ∀ (a : CauseSet) (c k : Cause), k ≠ c → hasCause (a ||| c.single) k = hasCause a k := by
    intro a c k hk
    unfold hasCause
    rw [BitVec.getLsbD_or]
    have : (Cause.single c).getLsbD k.bit.val = false := by cases c <;> cases k <;> first | rfl | exact absurd rfl hk
    rw [this, Bool.or_false]
  have hr : s.OnlyChannel (s.record ch n src reps).1 ch :=
    ⟨congrArg (fun t => { t with chans := s.chans }) (State.record_spec s ch n src reps).1,
      fun c _ => State.record_chan s ch c n src reps⟩
  have hrc : ∀ k : Cause, k ≠ .tableFull → hasCause (s.record ch n src reps).1.causes k = hasCause s.causes k := by
    intro k hk
    rcases (State.record_spec s ch n src reps).2 with h | h <;> rw [h]
    exact hbit _ _ _ hk
  unfold State.deliver
  split
  · split
    · obtain ⟨h1, h2, h3, h4⟩ := State.select_spec (s.record ch n src reps).1 ch
      refine ⟨hr.trans h1, ?_, ?_, ?_⟩
      · intro k k1 k2
        rw [← hrc k k1]
        rcases h2 with h | h <;> rw [h]
        exact hbit _ _ _ k2
      · rw [h3, State.record_chan]
      · rw [h4, State.record_chan]
    · refine ⟨hr, fun k k1 _ => hrc k k1, ?_, ?_⟩ <;> rw [State.record_chan]
  · exact ⟨State.OnlyChannel.refl _ _, fun _ _ _ => rfl, rfl, rfl⟩

/-- A delivery on a channel whose Migration Unit is busy leaves the channel as it was. -/
theorem State.deliver_busy {s : State} {ch : ChanId} (h : (s.chan ch).migration.isSome = true) (c : ChanId) (n : Nat)
    (src : ReadSource) (reps : Vector Report 8) : (s.deliver ch n src reps).chan c = s.chan c := by
  unfold State.deliver
  split
  · split
    · rw [State.select_busy (by rw [State.record_chan]; exact h), State.record_chan]
    · rw [State.record_chan]
  · rfl

/-! ### Capture -/

/-- Everything that one captured event changes (R169, R172, R174). -/
theorem State.captureOne_spec (s : State) (ch : ChanId) (e : Capture) :
    s.OnlyChannel (s.captureOne ch e) ch ∧ (s.captureOne ch e).table = s.table ∧
      ((s.captureOne ch e).causes = s.causes ∨ (s.captureOne ch e).causes = s.causes ||| e.cls.ueCause.single) ∧
      (s.captureOne ch e).chan ch = { s.chan ch with
        capture := takeCapture (s.chan ch).capture e
        ceCount := ((s.captureOne ch e).chan ch).ceCount, ueCount := ((s.captureOne ch e).chan ch).ueCount } := by
  unfold State.captureOne
  split
  · refine ⟨State.onlyChannel_modChan _ _ _, rfl, .inl rfl, ?_⟩
    rw [State.chan_modChan_same]
  · refine ⟨(State.onlyChannel_modChan _ _ _).trans (State.onlyChannel_raise _ _ _), rfl, .inr rfl, ?_⟩
    rw [State.chan_raise, State.chan_modChan_same]

/-- Everything that the events of one read change at Capture and Alert (R168). -/
theorem State.captureRead_spec (s : State) (ch : ChanId) (src : ReadSource) (n : Nat) (loc : Loc) (tag : Option Byte)
    (reps : Vector Report 8) :
    s.OnlyChannel (s.captureRead ch src n loc tag reps) ch ∧
      (s.captureRead ch src n loc tag reps).table = s.table ∧
      (∀ k : Cause, k ≠ .ue → k ≠ .ueCritical →
        hasCause (s.captureRead ch src n loc tag reps).causes k = hasCause s.causes k) ∧
      (s.captureRead ch src n loc tag reps).chan ch = { s.chan ch with
        capture := ((s.captureRead ch src n loc tag reps).chan ch).capture
        ceCount := ((s.captureRead ch src n loc tag reps).chan ch).ceCount
        ueCount := ((s.captureRead ch src n loc tag reps).chan ch).ueCount } := by
  have hbit : ∀ (a : CauseSet) (c : MemClass) (k : Cause), k ≠ .ue → k ≠ .ueCritical →
      hasCause (a ||| c.ueCause.single) k = hasCause a k := by
    intro a c k h1 h2
    unfold hasCause
    rw [BitVec.getLsbD_or]
    have : (Cause.single c.ueCause).getLsbD k.bit.val = false := by
      cases c <;> cases k <;> first | rfl | exact absurd rfl h1 | exact absurd rfl h2
    rw [this, Bool.or_false]
  have key : ∀ (l : List CwIndex) (s0 t : State), s0.OnlyChannel t ch → t.table = s0.table →
      (∀ k : Cause, k ≠ .ue → k ≠ .ueCritical → hasCause t.causes k = hasCause s0.causes k) →
      t.chan ch = { s0.chan ch with
        capture := (t.chan ch).capture, ceCount := (t.chan ch).ceCount, ueCount := (t.chan ch).ueCount } →
      ∀ u, u = l.foldl (fun t i =>
        match captureEvent src n loc tag (s.classOf ch n) i (reps.get i) with
        | some e => t.captureOne ch e
        | none   => t) t →
      s0.OnlyChannel u ch ∧ u.table = s0.table ∧
        (∀ k : Cause, k ≠ .ue → k ≠ .ueCritical → hasCause u.causes k = hasCause s0.causes k) ∧
        u.chan ch = { s0.chan ch with
          capture := (u.chan ch).capture, ceCount := (u.chan ch).ceCount, ueCount := (u.chan ch).ueCount } := by
    intro l
    induction l with
    | nil => intro s0 t h1 h2 h3 h4 u hu; subst hu; exact ⟨h1, h2, h3, h4⟩
    | cons i is ih =>
      intro s0 t h1 h2 h3 h4 u hu
      rw [List.foldl_cons] at hu
      cases hc : captureEvent src n loc tag (s.classOf ch n) i (reps.get i) with
      | none => rw [hc] at hu; exact ih s0 t h1 h2 h3 h4 u hu
      | some e =>
        rw [hc] at hu
        obtain ⟨k1, k2, k3, k4⟩ := State.captureOne_spec t ch e
        refine ih s0 (t.captureOne ch e) (h1.trans k1) (k2.trans h2) ?_ ?_ u hu
        · intro k ha hb
          rw [← h3 k ha hb]
          rcases k3 with h | h <;> rw [h]
          exact hbit _ _ _ ha hb
        · rw [k4, h4]
  exact key (List.finRange 8) s s (State.OnlyChannel.refl _ _) rfl (fun _ _ _ => rfl) rfl _ rfl

end Sys2Proof.Machine
end

