-- ==== Sys2Proof/Laws/Capture.lean ====
section
/-! SUPPORT. What the events of one read leave at Capture and Alert, said once (R168 to R174). -/

namespace Sys2Proof.Machine

/-! ### Cause sets -/

theorem hasCause_raise (a : CauseSet) (c k : Cause) :
    hasCause (a ||| c.single) k = (hasCause a k || decide (k = c)) := by
  unfold hasCause
  rw [BitVec.getLsbD_or]
  congr 1
  cases c <;> cases k <;> rfl

/-! ### The events handed over, in order -/

/-- The events that a read hands over, in codeword index order (R168). -/
def captureEvents (src : ReadSource) (line : Nat) (loc : Loc) (tag : Option Byte) (cls : MemClass)
    (reps : Vector Report 8) : List Capture :=
  (List.finRange 8).filterMap (fun i => captureEvent src line loc tag cls i (reps.get i))

theorem State.captureRead_eq (s : State) (ch : ChanId) (src : ReadSource) (n : Nat) (loc : Loc) (tag : Option Byte)
    (reps : Vector Report 8) :
    s.captureRead ch src n loc tag reps =
      (captureEvents src n loc tag (s.classOf ch n) reps).foldl (fun t e => t.captureOne ch e) s := by
  unfold State.captureRead captureEvents
  rw [List.foldl_filterMap]
  congr 1
  funext t i
  cases captureEvent src n loc tag (s.classOf ch n) i (reps.get i) <;> rfl

theorem State.captureOne_counts (s : State) (ch : ChanId) (e : Capture) :
    ((s.captureOne ch e).chan ch).ceCount =
        (if e.outcome = .ce then min 65535 ((s.chan ch).ceCount + 1) else (s.chan ch).ceCount) ∧
      ((s.captureOne ch e).chan ch).ueCount =
        (if e.outcome = .ue then min 65535 ((s.chan ch).ueCount + 1) else (s.chan ch).ueCount) ∧
      (s.captureOne ch e).causes = (if e.outcome = .ue then s.causes ||| e.cls.ueCause.single else s.causes) := by
  unfold State.captureOne
  cases h : e.outcome
  · simp [State.chan_modChan_same, maxCount]
  · simp only [State.chan_raise, State.chan_modChan_same]
    exact ⟨rfl, rfl, rfl⟩

/-- A list of events handed over one by one: the capture record, the two counts and the causes. -/
theorem State.captureAll (ch : ChanId) (cls : MemClass) (l : List Capture) (hl : ∀ e ∈ l, e.cls = cls) (s : State) :
    ((l.foldl (fun t e => t.captureOne ch e) s).chan ch).capture = l.foldl takeCapture (s.chan ch).capture ∧
      ((s.chan ch).ceCount ≤ 65535 → ((l.foldl (fun t e => t.captureOne ch e) s).chan ch).ceCount =
        min 65535 ((s.chan ch).ceCount + l.countP (fun e => decide (e.outcome = .ce)))) ∧
      ((s.chan ch).ueCount ≤ 65535 → ((l.foldl (fun t e => t.captureOne ch e) s).chan ch).ueCount =
        min 65535 ((s.chan ch).ueCount + l.countP (fun e => decide (e.outcome = .ue)))) ∧
      ∀ k : Cause, hasCause (l.foldl (fun t e => t.captureOne ch e) s).causes k =
        (hasCause s.causes k || (decide (k = cls.ueCause) && l.any (fun e => decide (e.outcome = .ue)))) := by
  induction l generalizing s with
  | nil => simp
  | cons e es ih =>
    obtain ⟨i1, i2, i3, i4⟩ := ih (fun x hx => hl x (List.mem_cons_of_mem _ hx)) (s.captureOne ch e)
    obtain ⟨c1, c2, c3⟩ := State.captureOne_counts s ch e
    have c4 : ((s.captureOne ch e).chan ch).capture = takeCapture (s.chan ch).capture e := by
      rw [(State.captureOne_spec s ch e).2.2.2]
    have he := hl e List.mem_cons_self
    rw [List.foldl_cons, List.foldl_cons, List.countP_cons, List.countP_cons]
    refine ⟨by rw [i1, c4], ?_, ?_, ?_⟩
    · intro h
      rw [i2 (by rw [c1]; split <;> omega), c1]
      by_cases ho : e.outcome = .ce
      · simp only [ho, if_true, decide_true]
        omega
      · simp [ho]
    · intro h
      rw [i3 (by rw [c2]; split <;> omega), c2]
      by_cases ho : e.outcome = .ue
      · simp only [ho, if_true, decide_true]
        omega
      · simp [ho]
    · intro k
      rw [i4, c3, List.any_cons]
      by_cases ho : e.outcome = .ue
      · simp only [ho, if_true, he, hasCause_raise, decide_true, Bool.true_or, Bool.and_true]
        cases hasCause s.causes k <;> cases decide (k = cls.ueCause) <;> simp
      · simp [ho]

/-! ### The capture record after a list of events (R169) -/

theorem takeCapture_keep (l : List Capture) (k : Capture) (h : k.outcome = .ue ∨ ∀ e ∈ l, e.outcome ≠ .ue) :
    l.foldl takeCapture (some k) = some k := by
  induction l with
  | nil => rfl
  | cons e es ih =>
    rw [List.foldl_cons]
    have : takeCapture (some k) e = some k := by
      unfold takeCapture
      rcases h with h | h
      · simp [h]
      · simp [h e List.mem_cons_self]
    rw [this]
    exact ih (h.imp id (fun h x hx => h x (List.mem_cons_of_mem _ hx)))

theorem takeCapture_ce (a : Capture) (l : List Capture) (h : ∀ e ∈ a :: l, e.outcome ≠ .ue) :
    (a :: l).foldl takeCapture none = some a :=
  takeCapture_keep l a (.inr (fun e he => h e (List.mem_cons_of_mem _ he)))

theorem takeCapture_ue (p l : List Capture) (a : Capture) (held : Option Capture) (ha : a.outcome = .ue)
    (hh : ∀ k, held = some k → k.outcome = .ce) (hp : ∀ e ∈ p, e.outcome = .ce) :
    (p ++ a :: l).foldl takeCapture held = some a := by
  induction p generalizing held with
  | nil =>
    rw [List.nil_append, List.foldl_cons]
    have : takeCapture held a = some a := by
      cases held with
      | none => rfl
      | some k => simp [takeCapture, hh k rfl, ha]
    rw [this]
    exact takeCapture_keep l a (.inl ha)
  | cons e es ih =>
    rw [List.cons_append, List.foldl_cons]
    refine ih _ ?_ (fun x hx => hp x (List.mem_cons_of_mem _ hx))
    intro k hk
    have he := hp e List.mem_cons_self
    cases held with
    | none => simp only [takeCapture, Option.some.injEq] at hk; rw [← hk, he]
    | some x =>
      simp only [takeCapture, he, reduceCtorEq, and_false, if_false, Option.some.injEq] at hk
      rw [← hk]
      exact hh x rfl

/-! ### A whole read -/

theorem captureEvent_cases (src : ReadSource) (n : Nat) (loc : Loc) (tag : Option Byte) (cls : MemClass) (i : CwIndex)
    (rep : Report) :
    captureEvent src n loc tag cls i rep =
      if rep.verdict.isCe ∨ rep.verdict = .uncorrectable then some (captureEntry src n loc tag cls i rep) else none := by
  unfold captureEvent captureEntry Loc.slot?
  cases loc <;> cases rep.verdict <;> simp [Verdict.isCe]

/-- Everything that the events of one read leave at Capture and Alert (R168). -/
theorem State.captureRead_handsOver (s : State) (ch : ChanId) (src : ReadSource) (n : Nat) (loc : Loc)
    (tag : Option Byte) (reps : Vector Report 8) :
    s.HandsOver (s.captureRead ch src n loc tag reps) ch src n loc tag reps := by
  have split8 : ∀ i : CwIndex, ∃ a b : List CwIndex, List.finRange 8 = a ++ i :: b ∧ ∀ j ∈ a, j < i := by
    intro i
    obtain ⟨a, b, h⟩ := List.append_of_mem (List.mem_finRange i)
    refine ⟨a, b, h, fun j hj => ?_⟩
    have hp : (List.finRange 8).Pairwise (· < ·) := List.pairwise_lt_finRange 8
    rw [h] at hp
    exact (List.pairwise_append.mp hp).2.2 j hj i List.mem_cons_self
  have hcls : ∀ e ∈ captureEvents src n loc tag (s.classOf ch n) reps, e.cls = s.classOf ch n := by
    intro e he
    obtain ⟨i, -, hi⟩ := List.mem_filterMap.mp he
    rw [captureEvent_cases] at hi
    split at hi
    · simp only [Option.some.injEq] at hi; rw [← hi]; rfl
    · cases hi
  have hout : ∀ i : CwIndex, (captureEntry src n loc tag (s.classOf ch n) i (reps.get i)).outcome =
      if (reps.get i).verdict = .uncorrectable then .ue else .ce := fun i => rfl
  have huesAny : (captureEvents src n loc tag (s.classOf ch n) reps).any (fun e => decide (e.outcome = .ue)) = true ↔
      ∃ i : CwIndex, (reps.get i).verdict = .uncorrectable := by
    unfold captureEvents
    rw [List.any_filterMap, List.any_eq_true]
    constructor
    · rintro ⟨i, -, h⟩
      refine ⟨i, ?_⟩
      rw [captureEvent_cases] at h
      cases hv : (reps.get i).verdict <;> simp [Verdict.isCe, hv, hout] at h ⊢
    · rintro ⟨i, h⟩
      exact ⟨i, List.mem_finRange i, by rw [captureEvent_cases]; simp [h, hout]⟩
  rw [State.captureRead_eq]
  obtain ⟨c1, c2, c3, c4⟩ := State.captureAll ch (s.classOf ch n) _ hcls s
  refine ⟨?_, ?_, ?_, ?_, ?_, ?_, ?_, ?_⟩
  · intro h
    rw [c2 h]
    unfold captureEvents
    rw [List.countP_filterMap]
    congr 2
    apply List.countP_congr
    intro i _
    rw [captureEvent_cases]
    cases hv : (reps.get i).verdict <;> simp [Verdict.isCe, hout, hv]
  · intro h
    rw [c3 h]
    unfold captureEvents
    rw [List.countP_filterMap]
    congr 2
    apply List.countP_congr
    intro i _
    rw [captureEvent_cases]
    cases hv : (reps.get i).verdict <;> simp [Verdict.isCe, hout, hv]
  · rw [c4, Bool.or_eq_true, Bool.and_eq_true, huesAny, decide_eq_true_eq]
    cases s.classOf ch n <;> simp [MemClass.ueCause]
  · rw [c4, Bool.or_eq_true, Bool.and_eq_true, huesAny, decide_eq_true_eq]
    cases s.classOf ch n <;> simp [MemClass.ueCause]
  · intro i hk hi hj
    rw [c1]
    obtain ⟨a, b, hab, hlt⟩ := split8 i
    unfold captureEvents
    rw [hab, List.filterMap_append, List.filterMap_cons]
    simp only [captureEvent_cases, hi, or_true, if_true]
    refine takeCapture_ue _ _ _ _ (by simp [hout, hi]) hk ?_
    intro e he
    obtain ⟨j, hja, hje⟩ := List.mem_filterMap.mp he
    split at hje
    · simp only [Option.some.injEq] at hje
      rw [← hje, hout, if_neg (hj j (hlt j hja))]
    · cases hje
  · intro i hn hu hi hj
    rw [c1, hn]
    obtain ⟨a, b, hab, hlt⟩ := split8 i
    unfold captureEvents
    rw [hab, List.filterMap_append, List.filterMap_cons]
    have ha : a.filterMap (fun i => captureEvent src n loc tag (s.classOf ch n) i (reps.get i)) = [] := by
      rw [List.filterMap_eq_nil_iff]
      intro j hja
      rw [captureEvent_cases, if_neg]
      simp [hj j (hlt j hja), hu j]
    rw [ha]
    simp only [captureEvent_cases, hi, true_or, if_true, List.nil_append]
    refine takeCapture_ce _ _ ?_
    intro e he
    rcases List.mem_cons.mp he with rfl | he
    · simp [hout, hu i]
    · obtain ⟨j, -, hje⟩ := List.mem_filterMap.mp he
      split at hje
      · simp only [Option.some.injEq] at hje
        rw [← hje, hout, if_neg (hu j)]
        simp
      · cases hje
  · intro k hk h
    rw [c1, hk]
    refine takeCapture_keep _ _ (h.imp id ?_)
    intro hu e he ho
    have : (captureEvents src n loc tag (s.classOf ch n) reps).any (fun e => decide (e.outcome = .ue)) = true :=
      List.any_eq_true.mpr ⟨e, he, by simpa using ho⟩
    obtain ⟨i, hi⟩ := huesAny.mp this
    exact hu i hi
  · intro hn h
    rw [c1, hn]
    have : captureEvents src n loc tag (s.classOf ch n) reps = [] := by
      unfold captureEvents
      rw [List.filterMap_eq_nil_iff]
      intro j _
      rw [captureEvent_cases, if_neg]
      simp [h j]
    rw [this]
    rfl

/-- What follows a read's events and leaves Capture and Alert alone leaves what the read has handed over. -/
theorem State.HandsOver.keep {s t u : State} {ch : ChanId} {src : ReadSource} {n : Nat} {loc : Loc}
    {tag : Option Byte} {reps : Vector Report 8} (h : s.HandsOver t ch src n loc tag reps)
    (h1 : (u.chan ch).capture = (t.chan ch).capture) (h2 : (u.chan ch).ceCount = (t.chan ch).ceCount)
    (h3 : (u.chan ch).ueCount = (t.chan ch).ueCount) (h4 : hasCause u.causes .ue = hasCause t.causes .ue)
    (h5 : hasCause u.causes .ueCritical = hasCause t.causes .ueCritical) : s.HandsOver u ch src n loc tag reps := by
  unfold State.HandsOver at h ⊢
  rw [h1, h2, h3, h4, h5]
  exact h

end Sys2Proof.Machine
end

