-- ==== Sys2Proof/Laws/Table.lean ====
section
/-! SUPPORT. The Defect Record Table: what updates, insertions, evictions, deliveries and selections leave of it. -/

namespace Sys2Proof.Machine

variable {s t u : State} {ch : ChanId} {n : Nat}

/-! ### Updates, insertions and evictions -/

theorem mem_updateRec {l : List Record} {k : Key} {f : Record → Record} {r : Record}
    (hf : ∀ x : Record, x.key = k → (f x).key = k) (h : r ∈ updateRec l k f) (hk : r.key ≠ k) : r ∈ l := by
  unfold updateRec at h
  obtain ⟨x, hx, rfl⟩ := List.mem_map.mp h
  split at hk
  · next hx' => exact absurd (hf x hx') hk
  · next hx' => rwa [if_neg hx']

theorem updateRec_keys (l : List Record) (k : Key) {f : Record → Record} (hf : ∀ x : Record, x.key = k → (f x).key = k) :
    (updateRec l k f).map (fun r => r.key) = l.map (fun r => r.key) := by
  unfold updateRec
  rw [List.map_map]
  apply List.map_congr_left
  intro x _
  show (if x.key = k then f x else x).key = x.key
  split
  · next h => rw [hf x h, h]
  · rfl

theorem mem_insertRec {l : List Record} {r x : Record} : x ∈ insertRec l r ↔ x = r ∨ x ∈ l := by
  induction l with
  | nil => simp [insertRec]
  | cons y ys ih =>
    unfold insertRec
    split
    · simp
    · simp only [List.mem_cons, ih]
      tauto

/-- In a sound table a key names one record. -/
theorem State.TableSound.unique (h : s.TableSound) {a b : Record} (ha : a ∈ s.table) (hb : b ∈ s.table)
    (hk : a.key = b.key) : a = b := by
  have irr : ∀ k : Key, Key.lt k k = false := by intro k; simp [Key.lt]
  have hp := h.1
  generalize s.table = l at *
  induction l with
  | nil => cases ha
  | cons x xs ih =>
    rw [List.pairwise_cons] at hp
    rcases List.mem_cons.mp ha with rfl | ha' <;> rcases List.mem_cons.mp hb with rfl | hb'
    · rfl
    · have h1 := hp.1 b hb'
      rw [hk, irr] at h1
      cases h1
    · have h1 := hp.1 a ha'
      rw [hk, irr] at h1
      cases h1
    · exact ih ha' hb' hp.2

/-- What an eviction removes may be evicted. -/
theorem makeRoom_spec {l m : List Record} (h : makeRoom l = some m) :
    m = l ∨ ∃ v ∈ l, v.evictable = true ∧ m = eraseRec l v.key := by
  unfold makeRoom at h
  split at h
  · left
    simpa using h.symm
  · right
    obtain ⟨v, hv, rfl⟩ := Option.map_eq_some_iff.mp h
    have hm := firstBy_mem hv
    rw [List.mem_filter] at hm
    exact ⟨v, hm.1, hm.2, rfl⟩

/-! ### Deliveries -/

theorem Record.applyEvent_key (r : Record) (w : Settings) (p : Policy) (i : CwIndex) (v : Verdict) :
    (r.applyEvent w p i v).1.key = r.key := by
  unfold Record.applyEvent Record.evaluate Record.scoreCe Record.scoreUe
  split
  · rfl
  · cases v with
    | corrected q =>
      dsimp only
      split <;> rfl
    | _ => rfl

theorem Record.applyEvents_key (r : Record) (w : Settings) (p : Policy) (reps : Vector Report 8) :
    (r.applyEvents w p reps).1.key = r.key := by
  unfold Record.applyEvents
  suffices h : ∀ (l : List CwIndex) (a : Record × Bool), a.1.key = r.key →
      (l.foldl (fun acc i => ((acc.1.applyEvent w p i (reps.get i).verdict).1,
        acc.2 || (acc.1.applyEvent w p i (reps.get i).verdict).2)) a).1.key = r.key from h _ _ rfl
  intro l
  induction l with
  | nil => exact fun a h => h
  | cons i is ih =>
    intro a ha
    exact ih _ ((Record.applyEvent_key _ _ _ _ _).trans ha)

/-- What a delivery leaves of the table (R22 to R27). -/
theorem State.record_table (s : State) (ch : ChanId) (n : Nat) (src : ReadSource) (reps : Vector Report 8) :
    s.TableKeptBut (s.record ch n src reps).1 ch n ∧
      ∀ r ∈ (s.record ch n src reps).1.table, r.key ≠ { channel := ch, line := n } → r ∈ s.table := by
  suffices h : (∀ r ∈ (s.record ch n src reps).1.table, r.key ≠ { channel := ch, line := n } → r ∈ s.table) ∧
      (s.TableSound → ∀ r ∈ s.table, r.evictable = false → ∃ q ∈ (s.record ch n src reps).1.table, q.key = r.key) from
    ⟨⟨fun r hr hk _ => h.1 r hr hk, h.2⟩, h.1⟩
  unfold State.record
  dsimp only
  split
  · next r hr =>
    have hk : r.key = { channel := ch, line := n } := by simpa using List.find?_some hr
    have hf : ∀ x : Record, x.key = { channel := ch, line := n } →
        (r.applyEvents s.settings (s.policy (s.classOf ch n)) reps).1.key = { channel := ch, line := n } :=
      fun _ _ => (Record.applyEvents_key _ _ _ _).trans hk
    refine ⟨fun q hq hqk => mem_updateRec hf hq hqk, ?_⟩
    intro _ q hq _
    have : q.key ∈ (updateRec s.table { channel := ch, line := n }
        (fun _ => (r.applyEvents s.settings (s.policy (s.classOf ch n)) reps).1)).map (fun r => r.key) := by
      rw [updateRec_keys _ _ hf]
      exact List.mem_map_of_mem hq
    obtain ⟨x, hx, hxk⟩ := List.mem_map.mp this
    exact ⟨x, hx, hxk⟩
  · split
    · next m hm =>
      constructor
      · intro q hq hqk
        rcases mem_insertRec.mp hq with h | hq
        · rw [h, Record.applyEvents_key] at hqk
          exact absurd rfl hqk
        · rcases makeRoom_spec hm with rfl | ⟨v, _, _, rfl⟩
          · exact hq
          · exact (List.mem_filter.mp hq).1
      · intro hs q hq he
        refine ⟨q, mem_insertRec.mpr (.inr ?_), rfl⟩
        rcases makeRoom_spec hm with rfl | ⟨v, hv, hve, rfl⟩
        · exact hq
        · refine List.mem_filter.mpr ⟨hq, ?_⟩
          rw [bne_iff_ne]
          intro hk
          rw [hs.unique hq hv hk, hve] at he
          cases he
    · exact ⟨fun r hr _ => hr, fun _ r hr _ => ⟨r, hr, rfl⟩⟩

/-- A step that keeps the keys and changes only the line's record and records it makes SPARING. -/
theorem State.TableKeptBut.keep (h : s.TableKeptBut t ch n)
    (h1 : ∀ r ∈ u.table, r.key ≠ { channel := ch, line := n } → r.key.channel ≠ ch ∨ r.state ≠ .sparing → r ∈ t.table)
    (h2 : u.table.map (fun r => r.key) = t.table.map (fun r => r.key)) : s.TableKeptBut u ch n := by
  refine ⟨fun r hr hk hc => h.1 r (h1 r hr hk hc) hk hc, ?_⟩
  intro hs r hr he
  obtain ⟨q, hq, hqk⟩ := h.2 hs r hr he
  have hm : q.key ∈ u.table.map (fun r => r.key) := h2 ▸ List.mem_map_of_mem hq
  obtain ⟨x, hx, hxk⟩ := List.mem_map.mp hm
  exact ⟨x, hx, hxk.trans hqk⟩

/-- What a selection leaves of the table (R147). -/
theorem State.select_table (s : State) (ch : ChanId) :
    (s.select ch).table.map (fun r => r.key) = s.table.map (fun r => r.key) ∧
      ∀ r ∈ (s.select ch).table, r.key.channel ≠ ch ∨ r.state ≠ .sparing → r ∈ s.table := by
  have same : ∀ v : State, v.table = s.table → v.table.map (fun r => r.key) = s.table.map (fun r => r.key) ∧
      ∀ r ∈ v.table, r.key.channel ≠ ch ∨ r.state ≠ .sparing → r ∈ s.table :=
    fun v hv => ⟨by rw [hv], fun r hr _ => hv ▸ hr⟩
  cases hm : (s.chan ch).migration with
  | some m => exact same _ (by rw [State.select_busy (by rw [hm]; rfl)])
  | none =>
    rw [State.select_idle hm]
    cases hc : s.chosen ch with
    | none => exact same _ rfl
    | some r =>
      cases hl : (s.chan ch).lowestFree with
      | none => exact same _ (State.refuseSlots_spec s ch).2.1
      | some i =>
        have hr := (State.chosen_spec hc).2.2
        show (s.startMigration r i false).table.map _ = _ ∧ ∀ q ∈ (s.startMigration r i false).table, _
        rw [(State.startMigration_spec s r i false).2.2.1]
        refine ⟨updateRec_keys _ _ (fun x hx => hx), ?_⟩
        intro q hq hcase
        unfold updateRec at hq
        obtain ⟨x, hx, rfl⟩ := List.mem_map.mp hq
        split at hcase
        · next hk =>
          rcases hcase with h | h
          · exact absurd (by show x.key.channel = ch; rw [hk, hr]) h
          · exact absurd rfl h
        · next hk => rwa [if_neg hk]

/-- A delivery with the selection it may bring about leaves the other records (R22 to R27, R147). -/
theorem State.deliver_table (s : State) (ch : ChanId) (n : Nat) (src : ReadSource) (reps : Vector Report 8) :
    s.TableKeptBut (s.deliver ch n src reps) ch n := by
  unfold State.deliver
  split
  · split
    · exact (State.record_table s ch n src reps).1.keep
        (fun r hr _ hc => (State.select_table _ ch).2 r hr hc) (State.select_table _ ch).1
    · exact (State.record_table s ch n src reps).1
  · exact ⟨fun r hr _ _ => hr, fun _ r hr _ => ⟨r, hr, rfl⟩⟩

end Sys2Proof.Machine
end

