-- ==== Sys2Proof/Laws/Deliver.lean ====
section
/-! SUPPORT. Deliveries at the Defect Record Table, said once: what a delivery does, and that it depends on nothing but the
table, the Region Map, the policies, the settings and the channel's slots, migration and exhaustion flag (R22 to R27, R147).
-/

namespace Sys2Proof.Machine

/-! ### The events of a delivery -/

theorem Record.applyEvents_fst (r : Record) (w : Settings) (p : Policy) (reps : Vector Report 8) :
    (r.applyEvents w p reps).1 = r.afterEvents w p reps := by
  unfold Record.applyEvents Record.afterEvents
  generalize List.finRange 8 = l
  suffices h : ∀ (b : Bool), (l.foldl (fun acc i => ((acc.1.applyEvent w p i (reps.get i).verdict).1,
      acc.2 || (acc.1.applyEvent w p i (reps.get i).verdict).2)) (r, b)).1 =
      l.foldl (fun x i => (x.applyEvent w p i (reps.get i).verdict).1) r from h false
  induction l generalizing r with
  | nil => exact fun _ => rfl
  | cons i is ih => exact fun b => ih _ _

/-- What one event leaves of the flags that a notice looks at, and when it gives one (R52). -/
theorem Record.applyEvent_notice (r : Record) (w : Settings) (p : Policy) (i : CwIndex) (v : Verdict) (q : Record)
    (hq : q = (r.applyEvent w p i v).1) :
    q.hold = r.hold ∧ q.state.sparable = r.state.sparable ∧ (r.spareWanted = true → q.spareWanted = true) ∧
      (r.applyEvent w p i v).2 = noticeDue r q p := by
  subst hq
  have key : ∀ x : Record, x.hold = r.hold → x.state = r.state → x.spareWanted = r.spareWanted →
      (x.evaluate p).hold = r.hold ∧ (x.evaluate p).state.sparable = r.state.sparable ∧
        (r.spareWanted = true → (x.evaluate p).spareWanted = true) := by
    intro x h1 h2 h3
    unfold Record.evaluate
    refine ⟨h1, ?_, fun h => by simp [h3, h]⟩
    rw [h2]
    show RecState.sparable (if _ then _ else _) = _
    split
    · next h => rw [h.1]; rfl
    · rfl
  have same : ∀ x : Record, x.hold = r.hold → x.state = r.state → x.spareWanted = r.spareWanted →
      x.hold = r.hold ∧ x.state.sparable = r.state.sparable ∧ (r.spareWanted = true → x.spareWanted = true) ∧
        false = noticeDue r x p := by
    intro x h1 h2 h3
    refine ⟨h1, by rw [h2], fun h => by rw [h3, h], ?_⟩
    unfold noticeDue
    rw [h3]
    cases r.spareWanted <;> rfl
  unfold Record.applyEvent
  split
  · exact same r rfl rfl rfl
  · cases v with
    | clean => exact same r rfl rfl rfl
    | poison => exact same _ rfl rfl rfl
    | uncorrectable =>
      obtain ⟨h1, h2, h3⟩ := key r.scoreUe rfl rfl rfl
      exact ⟨h1, h2, h3, rfl⟩
    | corrected b =>
      obtain ⟨h1, h2, h3⟩ := key (r.scoreCe w b) (by unfold Record.scoreCe; split <;> rfl)
        (by unfold Record.scoreCe; split <;> rfl) (by unfold Record.scoreCe; split <;> rfl)
      exact ⟨h1, h2, h3, rfl⟩

theorem noticeDue_iff (r q : Record) (p : Policy) : noticeDue r q p = true ↔ r.NoticeGiven q p := by
  unfold noticeDue Record.NoticeGiven
  cases r.spareWanted <;> cases q.spareWanted <;> cases q.hold <;> cases p.autoSpare <;> cases q.state <;>
    simp [RecState.sparable]

/-- The notices of a delivery's events, taken together, are the notice of the change they make (R52). -/
theorem Record.applyEvents_snd (r : Record) (w : Settings) (p : Policy) (reps : Vector Report 8) :
    (r.applyEvents w p reps).2 = true ↔ r.NoticeGiven (r.afterEvents w p reps) p := by
  rw [← Record.applyEvents_fst, ← noticeDue_iff]
  unfold Record.applyEvents
  generalize List.finRange 8 = l
  let step : Record × Bool → CwIndex → Record × Bool := fun acc i =>
    ((acc.1.applyEvent w p i (reps.get i).verdict).1, acc.2 || (acc.1.applyEvent w p i (reps.get i).verdict).2)
  suffices h : ∀ a : Record × Bool, a.1.hold = r.hold → a.1.state.sparable = r.state.sparable →
      (r.spareWanted = true → a.1.spareWanted = true) → a.2 = noticeDue r a.1 p →
      (l.foldl step a).2 = noticeDue r (l.foldl step a).1 p by
    have hn : false = noticeDue r r p := by unfold noticeDue; cases r.spareWanted <;> rfl
    rw [show (l.foldl _ (r, false)).2 = _ from h (r, false) rfl rfl id hn]
  induction l with
  | nil => exact fun a _ _ _ h => h
  | cons i is ih =>
    intro a h1 h2 h3 h4
    rw [List.foldl_cons]
    obtain ⟨k1, k2, k3, k4⟩ := Record.applyEvent_notice a.1 w p i (reps.get i).verdict _ rfl
    refine ih _ (k1.trans h1) (k2.trans h2) (fun h => k3 (h3 h)) ?_
    show (a.2 || (a.1.applyEvent w p i (reps.get i).verdict).2) = _
    rw [h4, k4]
    unfold noticeDue
    show _ = (!r.spareWanted && (a.1.applyEvent w p i (reps.get i).verdict).1.spareWanted &&
      (a.1.applyEvent w p i (reps.get i).verdict).1.state.sparable && p.autoSpare &&
        !(a.1.applyEvent w p i (reps.get i).verdict).1.hold)
    rw [k2, k1, h2, h1]
    revert h3 k3
    cases r.spareWanted <;> cases a.1.spareWanted <;>
      cases (a.1.applyEvent w p i (reps.get i).verdict).1.spareWanted <;> simp

/-! ### The record part -/

theorem hasEvents_eq_false {reps : Vector Report 8} :
    hasEvents reps = false ↔ ∀ i : CwIndex, (reps.get i).verdict = .clean := by
  unfold hasEvents
  rw [List.any_eq_false]
  exact ⟨fun h i => by simpa using h i (List.mem_finRange i), fun h i _ => by simp [h i]⟩

/-- The eviction of a full table takes the record that comes before every other candidate (R26). -/
theorem evictee_of {l : List Record} {v : Record} (h : v.EvictedFrom l) : evictee l = some v := by
  obtain ⟨h1, h2, h3, h4, h5⟩ := h
  have irr : ∀ k : Key, Key.lt k k = false := by intro k; simp [Key.lt]
  have asym : ∀ a b : Key, Key.lt a b = true → Key.lt b a = false := by
    intro a b
    simp only [Key.lt, Bool.or_eq_true, Bool.and_eq_true, decide_eq_true_eq, Bool.or_eq_false_iff,
      Bool.and_eq_false_imp, decide_eq_false_iff_not, not_lt]
    rintro (h | ⟨h, h'⟩)
    · exact ⟨h.le, fun e => absurd h (by rw [e]; exact lt_irrefl _)⟩
    · exact ⟨h.le, fun _ => h'.le⟩
  refine firstBy_eq_some (List.mem_filter.mpr ⟨h1, by simp [Record.evictable, h2, h3, h4]⟩) ?_
    (by simp [Record.evictsBefore, irr])
  intro x hx hne
  obtain ⟨hx1, hx2⟩ := List.mem_filter.mp hx
  simp only [Record.evictable, Bool.and_eq_true, decide_eq_true_eq, Bool.not_eq_eq_eq_not, Bool.not_true] at hx2
  simp only [Record.evictsBefore, Bool.or_eq_true, Bool.and_eq_true, decide_eq_true_eq, Bool.or_eq_false_iff,
    Bool.and_eq_false_imp, decide_eq_false_iff_not, not_lt]
  rcases h5 x hx1 hne hx2.1.1 hx2.1.2 hx2.2 with h | ⟨h, h' | ⟨h', h''⟩⟩
  · exact ⟨.inl h, h.le, fun e => by omega⟩
  · exact ⟨.inr ⟨h, .inl h'⟩, h.le, fun _ => ⟨by omega, fun e => by omega⟩⟩
  · exact ⟨.inr ⟨h, .inr ⟨h', h''⟩⟩, h.le, fun _ => ⟨by omega, fun _ => asym _ _ h''⟩⟩

/-- What the record part of a delivery with events does when it records them (R22, R25, R26). -/
theorem State.record_takes {s : State} {ch : ChanId} {n : Nat} {src : ReadSource} {reps : Vector Report 8}
    {r : Record} {l : List Record}
    (h : s.TableTakes ch n (originOf src) r (r.afterEvents s.settings (s.policy (s.classOf ch n)) reps) l) :
    (s.record ch n src reps).1 = { s with table := l } ∧
      ((s.record ch n src reps).2 = true ↔
        r.NoticeGiven (r.afterEvents s.settings (s.policy (s.classOf ch n)) reps) (s.policy (s.classOf ch n))) := by
  unfold State.record
  rcases h with ⟨h1, rfl⟩ | ⟨h1, rfl, h2⟩
  · rw [h1]
    dsimp only
    refine ⟨?_, Record.applyEvents_snd _ _ _ _⟩
    rw [Record.applyEvents_fst]
    rfl
  · rw [h1]
    have hm : ∃ m, makeRoom s.table = some m ∧ l = insertRec m (Record.afterEvents
        (newRecord { channel := ch, line := n } (originOf src)) s.settings (s.policy (s.classOf ch n)) reps) := by
      rcases h2 with ⟨h, rfl⟩ | ⟨h, v, hv, rfl⟩
      · exact ⟨s.table, by simp [makeRoom, tableCapacity, h], rfl⟩
      · refine ⟨_, ?_, rfl⟩
        rw [makeRoom, if_neg (by simp [tableCapacity]; omega), evictee_of hv]
        rfl
    obtain ⟨m, hm, rfl⟩ := hm
    dsimp only
    rw [hm]
    dsimp only
    refine ⟨?_, Record.applyEvents_snd _ _ _ _⟩
    rw [Record.applyEvents_fst]

/-- A delivery for a new key of a full table with nothing to evict (R27). -/
theorem State.record_full {s : State} {ch : ChanId} {n : Nat} (src : ReadSource) (reps : Vector Report 8)
    (h : s.rec? ch n = none) (hf : 1024 ≤ s.table.length)
    (hv : ∀ v ∈ s.table, v.state = .watch → v.pinned = false → v.poison ≠ 0) :
    s.record ch n src reps = (s.raise .tableFull, false) := by
  have hm : makeRoom s.table = none := by
    rw [makeRoom, if_neg (by simp [tableCapacity]; omega)]
    have : s.table.filter Record.evictable = [] := by
      rw [List.filter_eq_nil_iff]
      intro v h
      have := hv v h
      simp only [Record.evictable, Bool.and_eq_true, decide_eq_true_eq, Bool.not_eq_eq_eq_not, Bool.not_true]
      rintro ⟨⟨h1, h2⟩, h3⟩
      exact this h1 h2 h3
    rw [evictee, this]
    rfl
  unfold State.record
  rw [h]
  dsimp only
  rw [hm]

/-! ### What a delivery depends on -/

/-- Two states agree in all that a delivery on a channel looks at. -/
structure State.Agrees (s t : State) (ch : ChanId) : Prop where
  table      : t.table = s.table
  windows    : t.windows = s.windows
  policies   : t.policies = s.policies
  settings   : t.settings = s.settings
  slots      : (t.chan ch).slots = (s.chan ch).slots
  migration  : (t.chan ch).migration = (s.chan ch).migration
  exhausted  : (t.chan ch).exhausted = (s.chan ch).exhausted
  tableFull  : hasCause t.causes .tableFull = hasCause s.causes .tableFull
  spareEmpty : hasCause t.causes .spareExhausted = hasCause s.causes .spareExhausted

theorem State.Agrees.classOf {s t : State} {ch : ChanId} (h : s.Agrees t ch) (c : ChanId) (n : Nat) :
    t.classOf c n = s.classOf c n := by
  unfold State.classOf
  rw [h.windows]

theorem State.Agrees.record {s t : State} {ch : ChanId} (h : s.Agrees t ch) (n : Nat) (src : ReadSource)
    (reps : Vector Report 8) :
    (s.record ch n src reps).1.Agrees (t.record ch n src reps).1 ch ∧
      (t.record ch n src reps).2 = (s.record ch n src reps).2 := by
  unfold State.record State.rec? State.policy
  rw [h.classOf, h.table, h.policies, h.settings]
  dsimp only
  cases findRec s.table { channel := ch, line := n } with
  | some r => exact ⟨⟨rfl, h.windows, rfl, rfl, h.slots, h.migration, h.exhausted, h.tableFull, h.spareEmpty⟩, rfl⟩
  | none =>
    cases makeRoom s.table with
    | some l => exact ⟨⟨rfl, h.windows, rfl, rfl, h.slots, h.migration, h.exhausted, h.tableFull, h.spareEmpty⟩, rfl⟩
    | none =>
      refine ⟨⟨h.table, h.windows, h.policies, h.settings, h.slots, h.migration, h.exhausted, ?_, ?_⟩, rfl⟩
      · show hasCause (t.causes ||| _) _ = hasCause (s.causes ||| _) _
        rw [hasCause_raise, hasCause_raise, h.tableFull]
      · show hasCause (t.causes ||| _) _ = hasCause (s.causes ||| _) _
        rw [hasCause_raise, hasCause_raise, h.spareEmpty]

theorem State.Agrees.select {s t : State} {ch : ChanId} (h : s.Agrees t ch) : (s.select ch).Agrees (t.select ch) ch := by
  cases hm : (s.chan ch).migration with
  | some m =>
    rw [State.select_busy (by rw [hm]; rfl), State.select_busy (by rw [h.migration, hm]; rfl)]
    exact h
  | none =>
    rw [State.select_idle hm, State.select_idle (h.migration.trans hm)]
    have hcand : t.isCandidate ch = s.isCandidate ch := by
      funext r
      unfold State.isCandidate State.policy
      rw [h.classOf, h.policies]
    have hc : t.chosen ch = s.chosen ch := by
      unfold State.chosen
      rw [h.table, hcand]
    have hl : (t.chan ch).lowestFree = (s.chan ch).lowestFree := by
      unfold Channel.lowestFree
      rw [h.slots]
    rw [hc, hl]
    cases hch : s.chosen ch with
    | none => exact h
    | some r =>
      have hk := (State.chosen_spec hch).2.2
      dsimp only
      cases (s.chan ch).lowestFree with
      | none =>
        dsimp only
        unfold State.refuseSlots
        rw [h.exhausted]
        split
        · exact h
        · refine ⟨h.table, h.windows, h.policies, h.settings, ?_, ?_, ?_, ?_, ?_⟩
          · rw [State.chan_modChan_same, State.chan_modChan_same]; exact h.slots
          · rw [State.chan_modChan_same, State.chan_modChan_same]; exact h.migration
          · rw [State.chan_modChan_same, State.chan_modChan_same]
          · show hasCause (t.causes ||| _) _ = hasCause (s.causes ||| _) _
            rw [hasCause_raise, hasCause_raise, h.tableFull]
          · show hasCause (t.causes ||| _) _ = hasCause (s.causes ||| _) _
            rw [hasCause_raise, hasCause_raise, h.spareEmpty]
      | some i =>
        dsimp only
        obtain ⟨-, a2, a3, a4⟩ := State.startMigration_spec s r i false
        obtain ⟨-, b2, b3, b4⟩ := State.startMigration_spec t r i false
        rw [hk, Channel.setSlot_allocated] at a4 b4
        refine ⟨by rw [a3, b3, h.table], h.windows, h.policies, h.settings, ?_, ?_, ?_, by rw [a2, b2, h.tableFull],
          by rw [a2, b2, h.spareEmpty]⟩
        · rw [a4, b4]; exact congrArg (fun v => v.set i.val SlotState.allocated) h.slots
        · rw [a4, b4]
        · rw [a4, b4]

theorem State.Agrees.deliver {s t : State} {ch : ChanId} (h : s.Agrees t ch) (n : Nat) (src : ReadSource)
    (reps : Vector Report 8) : (s.deliver ch n src reps).Agrees (t.deliver ch n src reps) ch := by
  obtain ⟨h1, h2⟩ := h.record n src reps
  unfold State.deliver
  rw [h2]
  split
  · split
    · exact h1.select
    · exact h1
  · exact h

/-- A delivery made from a state that agrees with another is the other's delivery. -/
theorem State.Agrees.delivers {s t : State} {ch : ChanId} (h : s.Agrees t ch) (n : Nat) (src : ReadSource)
    (reps : Vector Report 8) : s.Delivers (t.deliver ch n src reps) ch n src reps :=
  have k := h.deliver n src reps
  ⟨k.table, k.slots, k.migration, k.exhausted, k.tableFull, k.spareEmpty⟩

/-- The common end of every decode: the events go to Capture and Alert, the read's own work touches nothing that a delivery
or a capture looks at, and the delivery follows (R22, R168). -/
theorem State.delivers_handsOver {s u : State} {ch : ChanId} (src : ReadSource) (n : Nat) (loc : Loc)
    (tag : Option Byte) (reps : Vector Report 8) (h1 : (s.captureRead ch src n loc tag reps).OnlyChannel u ch)
    (h2 : u.table = s.table)
    (h3 : ∀ k : Cause, k ≠ .poisonRead →
      hasCause u.causes k = hasCause (s.captureRead ch src n loc tag reps).causes k)
    (h4 : u.chan ch = { (s.captureRead ch src n loc tag reps).chan ch with
      queue := (u.chan ch).queue, owed := (u.chan ch).owed, flights := (u.chan ch).flights, wbq := (u.chan ch).wbq
      patrol := (u.chan ch).patrol }) :
    s.Delivers (u.deliver ch n src reps) ch n src reps ∧
      s.HandsOver (u.deliver ch n src reps) ch src n loc tag reps := by
  obtain ⟨a1, -, a3, a4⟩ := State.captureRead_spec s ch src n loc tag reps
  have k := State.captureRead_handsOver s ch src n loc tag reps
  have o := a1.trans h1
  constructor
  · refine State.Agrees.delivers ⟨h2, o.windows_eq, o.policies_eq, o.settings_eq, ?_, ?_, ?_, ?_, ?_⟩ n src reps
    · rw [h4, a4]
    · rw [h4, a4]
    · rw [h4, a4]
    · rw [h3 _ (by decide), a3 _ (by decide) (by decide)]
    · rw [h3 _ (by decide), a3 _ (by decide) (by decide)]
  · obtain ⟨-, d2, d3, -⟩ := State.deliver_spec u ch n src reps
    refine k.keep ?_ ?_ ?_ ?_ ?_
    · rw [d3, h4]
    · rw [d3, h4]
    · rw [d3, h4]
    · rw [d2 _ (by decide) (by decide), h3 _ (by decide)]
    · rw [d2 _ (by decide) (by decide), h3 _ (by decide)]

end Sys2Proof.Machine
end

