-- ==== Sys2Proof/Laws/Writes.lean ====
section
/-! SUPPORT. What offers and drops leave of the Write-back Queue and the held offers, what a change of a slot's state does to its
channel, and what the issue of a demand write or a poison write leaves of the poison sets, the superseded marks, the poison
writes owed and the held copy, each said once (R24, R84 to R93, R97, R114 to R116, R142, R155, R157). -/

namespace Sys2Proof.Machine

/-! ### The Write-back Queue -/

/-- Offers that meet no entry for their own place join the tail until the queue is full (R92, R114). -/
theorem offerHeld_distinct (q es : List WbEntry) (h : (q ++ es).Pairwise (fun a b => a.same b = false))
    (hl : q.length ≤ 4) : offerHeld q es = ((q ++ es).take 4, (q ++ es).drop 4) := by
  induction es generalizing q with
  | nil => simp [offerHeld, List.take_of_length_le hl, List.drop_eq_nil_of_le hl]
  | cons e es ih =>
    have hn : (q.any fun x => x.same e) = false := by
      rw [List.any_eq_false]
      intro x hx
      simp [(List.pairwise_append.mp h).2.2 x hx e List.mem_cons_self]
    unfold offerHeld offerTo
    rw [hn]
    rw [if_neg (by simp)]
    by_cases hq : q.length < wbqCapacity
    · rw [if_pos hq]
      have he : q ++ [e] ++ es = q ++ e :: es := by simp
      have := ih (q ++ [e]) (he ▸ h) (by rw [List.length_append]; exact hq)
      rw [he] at this
      exact this
    · rw [if_neg hq]
      have : q.length = 4 := le_antisymm hl (Nat.le_of_not_lt hq)
      simp [← this]

/-- An offer for a place that has an entry replaces it, whether the queue is full or not (R92). -/
theorem offerHeld_replace (q : List WbEntry) (e : WbEntry) (h : ∃ x ∈ q, x.same e = true) :
    offerHeld q [e] = (q.map (fun x => if x.same e then e else x), []) := by
  have hn : (q.any fun x => x.same e) = true := List.any_eq_true.mpr h
  unfold offerHeld offerTo
  rw [hn]
  simp [offerHeld]

/-- Writes dropped at places where none waits leave the channel as it was. -/
theorem Channel.dropWrites_none (c : Channel) (p : WbEntry → Bool)
    (h : ∀ w ∈ c.wbq ++ c.patrol.held, p w = false) : c.dropWrites p = c := by
  have h1 : c.wbq.any p = false := by
    rw [List.any_eq_false]
    intro x hx
    simp [h x (List.mem_append_left _ hx)]
  have h2 : c.patrol.held.filter (fun e => !p e) = c.patrol.held := by
    rw [List.filter_eq_self]
    intro x hx
    simp [h x (List.mem_append_right _ hx)]
  unfold Channel.dropWrites
  rw [h1, h2]
  rfl

/-- Writes dropped where an entry of the queue is among them: what is left of the queue and of the held offers, in order,
fills the queue (R93, R114). -/
theorem Channel.dropWrites_distinct (c : Channel) (p : WbEntry → Bool) (hp : c.wbq.any p = true)
    (h : (c.wbq ++ c.patrol.held).Pairwise (fun a b => a.same b = false)) (hl : c.wbq.length ≤ 4) :
    (c.dropWrites p).wbq = ((c.wbq ++ c.patrol.held).filter (fun e => !p e)).take 4 ∧
      (c.dropWrites p).patrol.held = ((c.wbq ++ c.patrol.held).filter (fun e => !p e)).drop 4 := by
  have k := offerHeld_distinct (c.wbq.filter (fun e => !p e)) (c.patrol.held.filter (fun e => !p e))
    (by rw [← List.filter_append]; exact h.filter _) ((List.length_filter_le _ _).trans hl)
  rw [← List.filter_append] at k
  unfold Channel.dropWrites
  rw [if_pos hp]
  exact ⟨congrArg Prod.fst k, congrArg Prod.snd k⟩

/-- Whatever writes are dropped, only the Write-back Queue, the consecutive-demand count and the held offers change. -/
theorem Channel.dropWrites_spec (c : Channel) (p : WbEntry → Bool) :
    c.dropWrites p = { c with
      wbq := (c.dropWrites p).wbq, demandCount := (c.dropWrites p).demandCount
      patrol := { c.patrol with held := (c.dropWrites p).patrol.held } } := by
  unfold Channel.dropWrites
  dsimp only
  split <;> rfl

/-- A queue takes the offer that `offerTo` takes (R92). -/
theorem offerTo_takes {q q' : List WbEntry} {e : WbEntry} (h : offerTo q e = some q') : WbqTakes q e q' := by
  unfold offerTo at h
  split at h
  · next ha =>
    have hr := WbqTakes.replaces q e (by
      obtain ⟨x, hx, hs⟩ := List.any_eq_true.mp ha
      exact ⟨x, hx, by simpa [WbEntry.same] using hs⟩)
    have he : q.map (fun x => if x.same e then e else x) =
        q.map (fun x => if x.loc = e.loc ∧ x.cw = e.cw then { x with content := e.content } else x) := by
      apply List.map_congr_left
      intro x _
      by_cases hx : x.loc = e.loc ∧ x.cw = e.cw
      · have : x.same e = true := by simp [WbEntry.same, hx]
        rw [if_pos this, if_pos hx, hx.1, hx.2]
      · have : ¬ x.same e = true := by simpa [WbEntry.same] using hx
        rw [if_neg this, if_neg hx]
    rw [← Option.some.inj h, he]
    exact hr
  · next ha =>
    split at h
    · next hl =>
      rw [← Option.some.inj h]
      refine .joins q e (fun x hx hs => ?_) hl
      exact ha (List.any_eq_true.mpr ⟨x, hx, by simp [WbEntry.same, hs]⟩)
    · cases h

/-- A queue is full for the offer that `offerTo` does not take (R92). -/
theorem offerTo_full {q : List WbEntry} {e : WbEntry} (h : offerTo q e = none) : WbqFullFor q e := by
  unfold offerTo at h
  split at h
  · cases h
  · next ha =>
    split at h
    · cases h
    · next hl =>
      exact ⟨fun x hx hs => ha (List.any_eq_true.mpr ⟨x, hx, by simp [WbEntry.same, hs]⟩), Nat.le_of_not_lt hl⟩

/-- Offers of origin DEMAND, taken or dropped one after the other (R92). -/
theorem demandOffers (es : List WbEntry) (q : List WbEntry) :
    DemandOffers q es (es.foldl (fun b e => (offerTo b e).getD b) q) := by
  induction es generalizing q with
  | nil => exact .done q
  | cons e es ih =>
    rw [List.foldl_cons]
    cases h : offerTo q e with
    | some q' => exact .taken _ q' _ _ _ (offerTo_takes h) (ih q')
    | none => exact .dropped _ _ _ _ (offerTo_full h) (ih q)

/-- Offers of origin PATROL, taken up to the first that is held (R92, R114). -/
theorem patrolOffers (es : List WbEntry) (q : List WbEntry) :
    PatrolOffers q es (offerHeld q es).1 (offerHeld q es).2 := by
  induction es generalizing q with
  | nil => exact .done q
  | cons e es ih =>
    unfold offerHeld
    cases h : offerTo q e with
    | some q' => exact .taken _ q' _ _ _ _ (offerTo_takes h) (ih q')
    | none => exact .held _ _ _ (offerTo_full h)

/-- What the drop of entries and held offers leaves (R93, R97, R114, R115). -/
theorem Channel.dropWrites_drops (c : Channel) (p : WbEntry → Bool) : c.Drops (c.dropWrites p) c.demandCount p := by
  refine ⟨?_, ?_, ?_⟩
  · have := Channel.dropWrites_spec c p
    generalize c.dropWrites p = d at *
    rw [this]
  · intro h
    have hn : c.wbq.any p = false := by
      rw [List.any_eq_false]
      intro x hx
      simp [h x hx]
    unfold Channel.dropWrites
    rw [hn]
    exact ⟨rfl, rfl, rfl⟩
  · intro h
    unfold Channel.dropWrites
    rw [if_pos (List.any_eq_true.mpr h)]
    refine ⟨patrolOffers _ _, ?_⟩
    show (if (c.wbq.filter (fun e => !p e)).isEmpty then 0 else c.demandCount) = _
    have : (c.wbq.filter (fun e => !p e)).isEmpty = true ↔ ∀ e ∈ c.wbq, p e = true := by
      simp [List.isEmpty_iff, List.filter_eq_nil_iff]
    by_cases hc : ∀ e ∈ c.wbq, p e = true
    · rw [if_pos (this.mpr hc), if_pos hc]
    · rw [if_neg (fun e => hc (this.mp e)), if_neg hc]

/-! ### Slots that change state -/

/-- Everything that a change of a slot's state does to its channel (R142). -/
theorem Channel.setSlot_spec (c : Channel) (i : SlotId) (st : SlotState) :
    c.setSlot i st = { c with
      slots := c.slots.set i.val st, exhausted := false, flights := markMoved i c.flights
      wbq := (c.setSlot i st).wbq, demandCount := (c.setSlot i st).demandCount
      patrol := { c.patrol with held := (c.setSlot i st).patrol.held } } ∧
    (st ≠ .allocated → c.Drops (c.setSlot i st) c.demandCount (WbEntry.atSlot i)) := by
  by_cases h : st = .allocated
  · subst h
    exact ⟨rfl, fun k => absurd rfl k⟩
  · have hp : (fun e : WbEntry => e.loc == .slot i) = WbEntry.atSlot i := by
      funext e
      by_cases he : e.loc = .slot i <;> simp [WbEntry.atSlot, he]
    have hs : c.setSlot i st = Channel.dropWrites { c with
        slots := c.slots.set i.val st, exhausted := false, flights := markMoved i c.flights } (WbEntry.atSlot i) := by
      unfold Channel.setSlot
      rw [if_neg h, hp]
      rfl
    have k1 := Channel.dropWrites_spec { c with
        slots := c.slots.set i.val st, exhausted := false, flights := markMoved i c.flights } (WbEntry.atSlot i)
    have k2 := Channel.dropWrites_drops { c with
        slots := c.slots.set i.val st, exhausted := false, flights := markMoved i c.flights } (WbEntry.atSlot i)
    rw [← hs] at k1 k2
    exact ⟨k1, fun _ => k2⟩

/-- Reads in flight whose slots have not changed state are not marked. -/
theorem Channel.movedBy_same {c d : Channel} (h : d.slots = c.slots) (fs : List Flight) : fs.map (c.movedBy d) = fs := by
  conv_rhs => rw [← List.map_id fs]
  apply List.map_congr_left
  rintro ⟨kind, line, loc, words, moved⟩ _
  unfold Channel.movedBy
  cases loc <;> simp [h]

/-- Where one slot has changed state, the reads in flight at it are marked and no others. -/
theorem Channel.movedBy_set {c d : Channel} {i : SlotId} {st : SlotState} (h : d.slots = c.slots.set i.val st)
    (hn : c.slots.get i ≠ st) (fs : List Flight) : fs.map (c.movedBy d) = markMoved i fs := by
  apply List.map_congr_left
  rintro ⟨kind, line, loc, words, moved⟩ _
  unfold Channel.movedBy
  cases loc with
  | line n => simp
  | slot j =>
    by_cases hj : j = i
    · subst hj
      have : d.slots.get j = st := by simp [h, Vector.get_eq_getElem]
      simp [this, hn]
    · have hv : i.val ≠ j.val := fun e => hj (Fin.ext e.symm)
      have : d.slots.get j = c.slots.get j := by
        rw [h]
        simp [Vector.get_eq_getElem, Vector.getElem_set_ne _ _ hv]
      simp [this, hj]

/-- A selection marks the reads in flight at the slot it allocates (R142, R149). -/
theorem State.select_moved (s : State) (ch : ChanId) :
    ((s.select ch).chan ch).flights = (s.chan ch).flights.map ((s.chan ch).movedBy ((s.select ch).chan ch)) := by
  cases hm : (s.chan ch).migration with
  | some m =>
    rw [State.select_busy (by rw [hm]; rfl)]
    exact (Channel.movedBy_same rfl _).symm
  | none =>
    rw [State.select_idle hm]
    cases hc : s.chosen ch with
    | none => exact (Channel.movedBy_same rfl _).symm
    | some r =>
      have hk := (State.chosen_spec hc).2.2
      cases hf : (s.chan ch).lowestFree with
      | none =>
        have h4 := (State.refuseSlots_spec s ch).2.2.2
        dsimp only
        rw [h4]
        exact (Channel.movedBy_same rfl _).symm
      | some i =>
        have h4 := (State.startMigration_spec s r i false).2.2.2
        rw [hk] at h4
        dsimp only
        rw [h4, Channel.movedBy_set (i := i) (st := .allocated) rfl (by
          rw [(Channel.lowestFree_eq_some.mp hf).1]; decide)]
        rfl

/-- A delivery marks the reads in flight at the slot that a selection it brings about allocates, and no others (R142, R147).
-/
theorem State.deliver_moved (s : State) (ch : ChanId) (n : Nat) (src : ReadSource) (reps : Vector Report 8) :
    ((s.deliver ch n src reps).chan ch).flights =
      (s.chan ch).flights.map ((s.chan ch).movedBy ((s.deliver ch n src reps).chan ch)) := by
  have h := State.record_chan s ch ch n src reps
  unfold State.deliver
  split
  · split
    · have := State.select_moved (s.record ch n src reps).1 ch
      rw [h] at this
      exact this
    · rw [h]
      exact (Channel.movedBy_same rfl _).symm
  · exact (Channel.movedBy_same rfl _).symm

/-- A selection leaves a slot that is not FREE as it was (R141). -/
theorem State.select_keeps {s : State} {ch : ChanId} {i : SlotId} (h : (s.chan ch).slots.get i ≠ .free) :
    ((s.select ch).chan ch).slots.get i = (s.chan ch).slots.get i := by
  cases hm : (s.chan ch).migration with
  | some m => rw [State.select_busy (by rw [hm]; rfl)]
  | none =>
    rw [State.select_idle hm]
    cases hc : s.chosen ch with
    | none => rfl
    | some r =>
      have hk := (State.chosen_spec hc).2.2
      cases hf : (s.chan ch).lowestFree with
      | none =>
        have h4 := (State.refuseSlots_spec s ch).2.2.2
        dsimp only
        rw [h4]
      | some j =>
        have h4 := (State.startMigration_spec s r j false).2.2.2
        rw [hk] at h4
        have hv : j.val ≠ i.val := fun e => h (Fin.ext e ▸ (Channel.lowestFree_eq_some.mp hf).1)
        dsimp only
        rw [h4]
        simp [Channel.setSlot_allocated, Vector.get_eq_getElem, Vector.getElem_set_ne _ _ hv]

/-- Reads marked at one slot's change and then by what has changed since are the reads marked by what has changed in all. -/
theorem Channel.movedBy_after {a b d : Channel} {i : SlotId} {st : SlotState} (hb : b.slots = a.slots.set i.val st)
    (hd : d.slots.get i ≠ a.slots.get i) (fs : List Flight) :
    (markMoved i fs).map (b.movedBy d) = fs.map (a.movedBy d) := by
  unfold markMoved
  rw [List.map_map]
  apply List.map_congr_left
  rintro ⟨kind, line, loc, words, moved⟩ _
  unfold Channel.movedBy
  cases loc with
  | line n => simp
  | slot j =>
    by_cases hj : j = i
    · subst hj
      simp [Ne.symm hd]
    · have hv : i.val ≠ j.val := fun e => hj (Fin.ext e.symm)
      have : b.slots.get j = a.slots.get j := by
        rw [hb]
        simp [Vector.get_eq_getElem, Vector.getElem_set_ne _ _ hv]
      simp [hj, this]

/-- Everything that the end of a migration without a commit does to its channel, its target slot becoming FREE (R142, R151,
R163). -/
theorem State.cancelMigration_spec (s : State) (ch : ChanId) (m : Migration) (b : Bool)
    (hm : (s.chan ch).migration = some m) (d : Channel) (hd : d = (s.cancelMigration ch b).chan ch) :
    (s.chan ch).Drops d (s.chan ch).demandCount (WbEntry.atSlot m.target) ∧
      d = { s.chan ch with
        migration := none, slots := (s.chan ch).slots.set m.target.val .free, exhausted := false
        flights := markMoved m.target (markLate (s.chan ch).flights), wbq := d.wbq, demandCount := d.demandCount
        patrol := { (s.chan ch).patrol with held := d.patrol.held } } := by
  have e : (s.chan ch).flights.map (fun f => { f with kind := f.kind.endMigration }) = markLate (s.chan ch).flights := by
    unfold markLate
    apply List.map_congr_left
    rintro ⟨kind, line, loc, words, moved⟩ _
    cases kind <;> rfl
  have hc : d = Channel.setSlot { s.chan ch with
      migration := none, flights := markLate (s.chan ch).flights } m.target .free := by
    unfold State.cancelMigration at hd
    rw [hm] at hd
    dsimp only at hd
    rw [State.chan_modChan_same] at hd
    unfold State.dropMigration at hd
    rw [State.chan_modChan_same] at hd
    rw [hd, ← e]
    rfl
  obtain ⟨k1, k2⟩ := Channel.setSlot_spec { s.chan ch with
    migration := none, flights := markLate (s.chan ch).flights } m.target .free
  rw [← hc] at k1 k2
  exact ⟨k2 (by decide), k1⟩

/-! ### One location of a demand write -/

/-- What a demand write does at one location beside DRAM (R86, R88, R90, R116). -/
theorem State.writeAt_spec (s : State) (ch : ChanId) (plan : Vector CwWrite 8) (full : CwSet) (loc : Loc) :
    s.OnlyChannel (s.writeAt ch plan full loc) ch ∧ (s.writeAt ch plan full loc).causes = s.causes ∧
      (s.writeAt ch plan full loc).table =
        addPoison (removePoison s.table ch loc full) ch loc (markerSet plan) ∧
      (s.writeAt ch plan full loc).chan ch = { s.chan ch with
        dram := ((s.writeAt ch plan full loc).chan ch).dram
        owed := ((s.chan ch).owed.map (fun o => if o.loc = loc then { o with cws := o.cws &&& ~~~(writtenSet plan) } else o)).filter
          (fun o => !(decide (o.loc = loc) && decide (o.cws = 0)))
        patrol := { (s.chan ch).patrol with
          current := (s.chan ch).patrol.current.map (fun r =>
            if r.loc = loc ∧ r.decoded = false then { r with marks := r.marks ||| writtenSet plan } else r) } } := by
  have hc : (s.writeAt ch plan full loc).chan ch =
      (((s.chan ch).writeLine loc plan).dropOwed loc (writtenSet plan)).markSuperseded loc (writtenSet plan) := by
    unfold State.writeAt
    exact State.chan_modChan_same s ch (fun c =>
      ((c.writeLine loc plan).dropOwed loc (writtenSet plan)).markSuperseded loc (writtenSet plan))
  refine ⟨(State.onlyChannel_modChan _ _ _).trans (State.onlyChannel_table _ _ _), rfl, rfl, ?_⟩
  rw [hc]
  rfl

/-- One record after the poison notices of a demand write's locations (R24). -/
def Record.afterWrite (r : Record) (ch : ChanId) (full marked : CwSet) (locs : List Loc) : Record :=
  if r.key.channel = ch ∧ r.location ∈ locs then
    { r with poison := (r.poison &&& ~~~full) ||| (if r.state = .retired then 0 else marked) }
  else r

theorem Record.location_poison (r : Record) (x : CwSet) : ({ r with poison := x } : Record).location = r.location := rfl

theorem addPoison_removePoison (t : List Record) (ch : ChanId) (loc : Loc) (full marked : CwSet) :
    addPoison (removePoison t ch loc full) ch loc marked = t.map (fun r => r.afterWrite ch full marked [loc]) := by
  unfold addPoison removePoison
  rw [List.map_map]
  apply List.map_congr_left
  intro r _
  unfold Record.afterWrite
  by_cases h : r.isAt ch loc = true
  · have h' : r.key.channel = ch ∧ r.location = loc := by
      simpa only [Record.isAt, Bool.and_eq_true, decide_eq_true_eq] using h
    have h2 : Record.isAt { r with poison := r.poison &&& ~~~full } ch loc = true := h
    simp only [Function.comp, if_pos h, h2, h', List.mem_singleton, and_self, if_true, true_and]
    by_cases hr : r.state = .retired <;> simp [hr]
  · have h' : ¬ (r.key.channel = ch ∧ r.location = loc) := by
      simpa only [Record.isAt, Bool.and_eq_true, decide_eq_true_eq] using h
    simp only [Function.comp, h, false_and, Bool.false_eq_true, if_false, List.mem_singleton, if_neg h']

theorem Record.afterWrite_twice (r : Record) (ch : ChanId) (full marked : CwSet) (a b : Loc) :
    (r.afterWrite ch full marked [a]).afterWrite ch full marked [b] = r.afterWrite ch full marked [a, b] := by
  have alg : ∀ x f m : CwSet, ((x &&& ~~~f ||| m) &&& ~~~f) ||| m = x &&& ~~~f ||| m := by
    intro x f m
    apply BitVec.eq_of_getLsbD_eq
    intro i hi
    simp only [BitVec.getLsbD_or, BitVec.getLsbD_and, BitVec.getLsbD_not, hi, decide_true, Bool.true_and]
    cases x.getLsbD i <;> cases f.getLsbD i <;> cases m.getLsbD i <;> rfl
  unfold Record.afterWrite
  by_cases hk : r.key.channel = ch
  · by_cases ha : r.location = a
    · by_cases hb : r.location = b
      · have hl : ∀ x : CwSet, ({ r with poison := x } : Record).location = b := fun x => hb
        simp only [hk, ha, List.mem_cons, List.not_mem_nil, or_false, and_self, if_true, hl, true_or, alg]
      · have hl : ∀ x : CwSet, ({ r with poison := x } : Record).location = a := fun x => ha
        have hab : a ≠ b := fun e => hb (ha.trans e)
        simp only [hk, ha, List.mem_cons, List.not_mem_nil, or_false, and_self, if_true, hl, hab,
          if_false, and_false]
    · simp only [hk, ha, List.mem_cons, List.not_mem_nil, or_false, false_or, and_false, if_false, true_and]
  · simp only [hk, false_and, if_false]

/-- Codewords taken out of the poison writes owed to one location and then to another are taken out of those owed to either
(R84, R90). -/
theorem owed_twice (l : List Owed) (a b : Loc) (w : CwSet) :
    ((((l.map (fun o => if o.loc = a then { o with cws := o.cws &&& ~~~w } else o)).filter
      (fun o => !(decide (o.loc = a) && decide (o.cws = 0)))).map
      (fun o => if o.loc = b then { o with cws := o.cws &&& ~~~w } else o)).filter
      (fun o => !(decide (o.loc = b) && decide (o.cws = 0)))) =
    (l.map (fun o => if o.loc ∈ [a, b] then { o with cws := o.cws &&& ~~~w } else o)).filter
      (fun o => !(decide (o.loc ∈ [a, b]) && decide (o.cws = 0))) := by
  have alg : ∀ x : CwSet, (x &&& ~~~w) &&& ~~~w = x &&& ~~~w := by
    intro x
    rw [BitVec.and_assoc, BitVec.and_self]
  induction l with
  | nil => rfl
  | cons o l ih =>
    simp only [List.map_cons, List.filter_cons, List.mem_cons, List.not_mem_nil, or_false] at ih ⊢
    by_cases h1 : o.loc = a <;> by_cases h2 : o.loc = b <;> by_cases h3 : o.cws &&& ~~~w = 0 <;>
      by_cases h4 : o.cws = 0 <;> simp_all

/-- Codewords marked superseded at one location and then at another are marked at either (R116). -/
theorem marks_twice (x : Option PatrolRead) (a b : Loc) (w : CwSet) :
    (x.map (fun r => if r.loc = a ∧ r.decoded = false then { r with marks := r.marks ||| w } else r)).map
      (fun r => if r.loc = b ∧ r.decoded = false then { r with marks := r.marks ||| w } else r) =
    x.map (fun r => if r.loc ∈ [a, b] ∧ r.decoded = false then { r with marks := r.marks ||| w } else r) := by
  cases x with
  | none => rfl
  | some r =>
    obtain ⟨kind, line, loc, marks, decoded, across⟩ := r
    simp only [Option.map_some, List.mem_cons, List.not_mem_nil, or_false]
    by_cases h1 : loc = a <;> by_cases h2 : loc = b <;> cases decoded <;> simp_all [BitVec.or_assoc]

/-- What a demand write does at its locations, one after the other, beside DRAM (R24, R90, R116). -/
theorem State.writeAll_spec (s : State) (ch : ChanId) (plan : Vector CwWrite 8) (full : CwSet) (loc : Loc)
    (second : Option SlotId) (locs : List Loc) (hl : locs = locations loc second) (u : State)
    (hu : u = locs.foldl (fun t l => t.writeAt ch plan full l) s) :
    s.OnlyChannel u ch ∧ u.causes = s.causes ∧
      u.table = s.table.map (fun r => r.afterWrite ch full (markerSet plan) locs) ∧
      u.chan ch = { s.chan ch with
        dram := (u.chan ch).dram
        owed := ((s.chan ch).owed.map (fun o =>
          if o.loc ∈ locs then { o with cws := o.cws &&& ~~~(writtenSet plan) } else o)).filter
          (fun o => !(decide (o.loc ∈ locs) && decide (o.cws = 0)))
        patrol := { (s.chan ch).patrol with
          current := (s.chan ch).patrol.current.map (fun r =>
            if r.loc ∈ locs ∧ r.decoded = false then { r with marks := r.marks ||| writtenSet plan } else r) } } := by
  obtain ⟨a1, a2, a3, a4⟩ := State.writeAt_spec s ch plan full loc
  cases second with
  | none =>
    have hl' : locs = [loc] := hl
    subst hl'
    have hu' : u = s.writeAt ch plan full loc := hu
    subst hu'
    simp only [List.mem_singleton]
    exact ⟨a1, a2, by rw [a3, addPoison_removePoison], a4⟩
  | some i =>
    have hl' : locs = [loc, .slot i] := hl
    subst hl'
    have hu' : u = (s.writeAt ch plan full loc).writeAt ch plan full (.slot i) := hu
    obtain ⟨b1, b2, b3, b4⟩ := State.writeAt_spec (s.writeAt ch plan full loc) ch plan full (.slot i)
    rw [← hu'] at b1 b2 b3 b4
    refine ⟨a1.trans b1, b2.trans a2, ?_, ?_⟩
    · rw [b3, a3, addPoison_removePoison, addPoison_removePoison, List.map_map]
      apply List.map_congr_left
      intro r _
      exact Record.afterWrite_twice r ch full (markerSet plan) loc (.slot i)
    · rw [b4, a4]
      dsimp only
      rw [owed_twice, marks_twice]

/-- Everything that a demand write does at its locations beside DRAM (R24, R90, R93, R115, R116). -/
theorem State.issueWrite_spec (s : State) (ch : ChanId) (line : Nat) (p : Probe) (plan : Vector CwWrite 8)
    (full : CwSet) (locs : List Loc) (hl : locs = locations p.loc (s.secondAt ch line p)) :
    s.OnlyChannel (s.issueWrite ch line p plan full) ch ∧ (s.issueWrite ch line p plan full).causes = s.causes ∧
      (s.issueWrite ch line p plan full).table =
        s.table.map (fun r => r.afterWrite ch full (markerSet plan) locs) ∧
      (s.chan ch).Drops ((s.issueWrite ch line p plan full).chan ch) (s.chan ch).demandCount
        (WbEntry.reached locs (writtenSet plan)) ∧
      (s.issueWrite ch line p plan full).chan ch = { s.chan ch with
        dram := ((s.issueWrite ch line p plan full).chan ch).dram
        wbq := ((s.issueWrite ch line p plan full).chan ch).wbq
        demandCount := ((s.issueWrite ch line p plan full).chan ch).demandCount
        migration := if p.sparing then (s.chan ch).migration.map (fun m => if m.line = line then m.take plan else m)
          else (s.chan ch).migration
        owed := ((s.chan ch).owed.map (fun o =>
          if o.loc ∈ locs then { o with cws := o.cws &&& ~~~(writtenSet plan) } else o)).filter
          (fun o => !(decide (o.loc ∈ locs) && decide (o.cws = 0)))
        patrol := { (s.chan ch).patrol with
          held := ((s.issueWrite ch line p plan full).chan ch).patrol.held
          current := (s.chan ch).patrol.current.map (fun r =>
            if r.loc ∈ locs ∧ r.decoded = false then { r with marks := r.marks ||| writtenSet plan } else r) } } := by
  obtain ⟨k1, k2, k3, k4⟩ := State.writeAll_spec
    (s.modChan ch (fun c => c.dropWrites (WbEntry.reached locs (writtenSet plan)))) ch plan full p.loc
    (s.secondAt ch line p) locs hl _ rfl
  have d1 := Channel.dropWrites_spec (s.chan ch) (WbEntry.reached locs (writtenSet plan))
  obtain ⟨d2, d3, d4⟩ := Channel.dropWrites_drops (s.chan ch) (WbEntry.reached locs (writtenSet plan))
  rw [State.chan_modChan_same] at k4
  generalize hd : (s.chan ch).dropWrites (WbEntry.reached locs (writtenSet plan)) = d at *
  unfold State.issueWrite
  rw [← hl]
  dsimp only
  generalize locs.foldl (fun t l => State.writeAt t ch plan full l)
    (s.modChan ch (fun c => c.dropWrites (WbEntry.reached locs (writtenSet plan)))) = u at *
  have k5 : u.chan ch = { s.chan ch with
      dram := (u.chan ch).dram, wbq := d.wbq, demandCount := d.demandCount
      owed := ((s.chan ch).owed.map (fun o =>
        if o.loc ∈ locs then { o with cws := o.cws &&& ~~~(writtenSet plan) } else o)).filter
        (fun o => !(decide (o.loc ∈ locs) && decide (o.cws = 0)))
      patrol := { (s.chan ch).patrol with
        held := d.patrol.held
        current := (s.chan ch).patrol.current.map (fun r =>
          if r.loc ∈ locs ∧ r.decoded = false then { r with marks := r.marks ||| writtenSet plan } else r) } } := by
    rw [d1] at k4
    exact k4
  split
  · refine ⟨((State.onlyChannel_modChan _ _ _).trans k1).trans (State.onlyChannel_modChan _ _ _), k2, k3, ?_, ?_⟩ <;>
      rw [State.chan_modChan_same] <;> unfold Channel.handOver <;> rw [k5]
    exact ⟨rfl, d3, d4⟩
  · refine ⟨(State.onlyChannel_modChan _ _ _).trans k1, k2, k3, ?_, ?_⟩ <;> rw [k5]
    exact ⟨rfl, d3, d4⟩

/-! ### A poison write -/

/-- What a poison write does at one location beside DRAM (R24, R84). -/
theorem State.poisonAt_spec (s : State) (ch : ChanId) (cws : CwSet) (loc : Loc) :
    (s.poisonAt ch cws loc).table = s.table.map (fun r =>
        if r.key.channel = ch ∧ r.location ∈ [loc] ∧ r.state ≠ .retired then { r with poison := r.poison ||| cws } else r) ∧
      (s.poisonAt ch cws loc).chan ch = { s.chan ch with dram := ((s.poisonAt ch cws loc).chan ch).dram } := by
  constructor
  · show addPoison _ _ _ _ = _
    unfold addPoison
    apply List.map_congr_left
    intro r _
    unfold Record.isAt
    by_cases h1 : r.key.channel = ch <;> by_cases h2 : r.location = loc <;> by_cases h3 : r.state = .retired <;>
      simp [h1, h2, h3]
  · have : (s.poisonAt ch cws loc).chan ch = (s.chan ch).writeLine loc (poisonPlan cws) :=
      State.chan_modChan_same s ch (fun c => c.writeLine loc (poisonPlan cws))
    rw [this]
    rfl

/-- What a poison write does at its locations, one after the other, beside DRAM (R24, R84). -/
theorem State.poisonAll_spec (s : State) (ch : ChanId) (cws : CwSet) (loc : Loc) (second : Option SlotId)
    (locs : List Loc) (hl : locs = locations loc second) (u : State)
    (hu : u = locs.foldl (fun t l => t.poisonAt ch cws l) s) :
    u.table = s.table.map (fun r =>
        if r.key.channel = ch ∧ r.location ∈ locs ∧ r.state ≠ .retired then { r with poison := r.poison ||| cws } else r) ∧
      u.chan ch = { s.chan ch with dram := (u.chan ch).dram } := by
  obtain ⟨a1, a2⟩ := State.poisonAt_spec s ch cws loc
  cases second with
  | none =>
    have hl' : locs = [loc] := hl
    have hu' : u = s.poisonAt ch cws loc := by rw [hu, hl']; rfl
    rw [hu', hl']
    exact ⟨a1, a2⟩
  | some i =>
    have hl' : locs = [loc, .slot i] := hl
    have hu' : u = (s.poisonAt ch cws loc).poisonAt ch cws (.slot i) := by rw [hu, hl']; rfl
    obtain ⟨b1, b2⟩ := State.poisonAt_spec (s.poisonAt ch cws loc) ch cws (.slot i)
    rw [← hu'] at b1 b2
    constructor
    · rw [b1, a1, List.map_map, hl']
      apply List.map_congr_left
      intro r _
      have hx : ∀ x, Record.location { r with poison := x } = r.location := fun _ => rfl
      simp only [Function.comp, List.mem_cons, List.not_mem_nil, or_false]
      clear hu hu' hl hl' a1 a2 b1 b2
      generalize Loc.slot i = b
      by_cases h1 : r.key.channel = ch <;> by_cases h2 : r.location = loc <;> by_cases h4 : r.location = b <;>
        by_cases h3 : r.state = .retired <;> simp_all [BitVec.or_assoc]
    · rw [b2, a2]

/-- Everything that a poison write does to the table and to its channel beside DRAM (R24, R84, R93, R97, R115, R157). -/
theorem State.issuePoison_spec (s : State) (ch : ChanId) (o : Owed) (locs : List Loc)
    (hl : locs = locations o.loc (s.poisonSecond ch o)) (t : State) (ht : t = s.issuePoison ch o) :
    t.table = s.table.map (fun r =>
        if r.key.channel = ch ∧ r.location ∈ locs ∧ r.state ≠ .retired then { r with poison := r.poison ||| o.cws }
        else r) ∧
      (s.chan ch).Drops (t.chan ch) 0 (WbEntry.reached locs o.cws) ∧
      t.chan ch = { s.chan ch with
        dram := (t.chan ch).dram, wbq := (t.chan ch).wbq, demandCount := (t.chan ch).demandCount
        owed := (s.chan ch).owed.tail
        patrol := { (s.chan ch).patrol with held := (t.chan ch).patrol.held }
        migration := if s.reachesMigration ch o then
            (s.chan ch).migration.map (fun m => if m.line = o.line then m.take (poisonPlan o.cws) else m)
          else (s.chan ch).migration } := by
  obtain ⟨k1, k2⟩ := State.poisonAll_spec
    (s.modChan ch (fun c =>
      Channel.dropWrites { c.clearDemand with owed := c.owed.tail } (WbEntry.reached locs o.cws)))
    ch o.cws o.loc (s.poisonSecond ch o) locs hl _ rfl
  have d1 := Channel.dropWrites_spec { (s.chan ch).clearDemand with owed := (s.chan ch).owed.tail }
    (WbEntry.reached locs o.cws)
  obtain ⟨d2, d3, d4⟩ := Channel.dropWrites_drops { (s.chan ch).clearDemand with owed := (s.chan ch).owed.tail }
    (WbEntry.reached locs o.cws)
  rw [State.chan_modChan_same] at k2
  unfold State.issuePoison at ht
  rw [← hl] at ht
  dsimp only at ht
  generalize Channel.dropWrites { (s.chan ch).clearDemand with owed := (s.chan ch).owed.tail }
    (WbEntry.reached locs o.cws) = d at *
  generalize List.foldl (fun t l => State.poisonAt t ch o.cws l) _ _ = u at *
  have k3 : u.chan ch = { s.chan ch with
      dram := (u.chan ch).dram, wbq := d.wbq, demandCount := d.demandCount, owed := (s.chan ch).owed.tail
      patrol := { (s.chan ch).patrol with held := d.patrol.held } } := by
    rw [d1] at k2
    exact k2
  by_cases hr : s.reachesMigration ch o = true
  · rw [if_pos hr] at ht
    subst ht
    rw [State.chan_modChan_same, if_pos hr]
    unfold Channel.handOver
    rw [k3]
    exact ⟨k1, ⟨rfl, d3, d4⟩, rfl⟩
  · rw [if_neg hr] at ht
    subst ht
    rw [if_neg hr, k3]
    exact ⟨k1, ⟨rfl, d3, d4⟩, rfl⟩

end Sys2Proof.Machine
end

