-- ==== Sys2Proof/Tests/Slice0.lean ====
section
/-! SUPPORT. Tests: what WellFormed refuses, transactions written out from the manual, one step of each command on a small
state (the expected results are the manual's worked cases, or computed by hand from the rules named), and a witness for the
hypotheses of each statement of Certificates/Slice0/Obligations.lean. -/

namespace Sys2Proof.Tests

set_option Elab.async false

open Sys2Proof.Machine

/-! ### WellFormed: an ill-formed term for each check -/

theorem test_wellFormed_refuses_long_short : (Instr.linkShort 192).wellFormed = false := by decide
theorem test_wellFormed_takes_short : (Instr.linkShort 191).wellFormed = true := by decide
theorem test_wellFormed_refuses_assigned_unknown : (Instr.unknown 0 0x65).wellFormed = false := by decide
theorem test_wellFormed_takes_unknown : (Instr.unknown 0 0x66).wellFormed = true := by decide
theorem test_wellFormed_refuses_own_row_setting : (Instr.setSetting 0 0x23 5).wellFormed = false := by decide
theorem test_wellFormed_takes_plain_setting : (Instr.setSetting 0 0x24 5).wellFormed = true := by decide

/-! ### Transactions written out (R183, R192) -/

/-- The check byte of STATUS page 0 that the manual gives (R183). -/
theorem test_check_byte_of_status : checkByte (0x01#8 ++ 0#176) = 0xE3 := by decide +kernel

theorem test_reads_status_page_0 :
    decodeTransaction (Frame.bits (0x01#8 ++ (0#176 ++ 0xE3#8))) = .status 0 0 := by decide +kernel

/-- Six bytes of noise before a NOP are discarded (the sequence of errors on the link, T4). -/
theorem test_discards_noise : decodeTransaction (List.replicate 48 true ++ List.replicate 192 false) = .nop 48 := by
  decide +kernel

/-- A transaction made of byte values with the check byte that R183 gives them. -/
def sent (body : BitVec 184) : Instr := decodeTransaction (Frame.bits (Frame.withCheck body))

theorem test_reads_set_yield : sent (0x03#8 ++ (0x24#8 ++ (0x00000010#32 ++ 0#136))) = .setSetting 0 0x24 16 := by
  decide +kernel
theorem test_reads_phys_lines : sent (0x03#8 ++ (0x02#8 ++ (0x00400000#32 ++ 0#136))) = .setPhysLines 0 2 4194304 := by
  decide +kernel
theorem test_reads_adopt :
    sent (0x12#8 ++ (0x01#8 ++ (0x00000800#32 ++ (0x03#8 ++ (0x00C8#16 ++ 0#112))))) = .adopt 0 1 2048 3 200 := by
  decide +kernel
theorem test_reads_spare_slot : sent (0x23#8 ++ (0x03#8 ++ (0x01FE#16 ++ 0#152))) = .spareSlot 0 3 510 := by
  decide +kernel
theorem test_reads_class_set :
    sent (0x32#8 ++ (0x01#8 ++ (0x0028#16 ++ (0x001E#16 ++ (0x01#8 ++ (0x01#8 ++ 0#120)))))) =
      .classSet 0 1 40 30 1 1 := by decide +kernel
theorem test_reads_patrol_start :
    sent (0x43#8 ++ (0x03#8 ++ (0x00#8 ++ (0x01#8 ++ (0x002DC6C0#32 ++ 0#120))))) = .patrolStart 0 3 0 1 3000000 := by
  decide +kernel
theorem test_reads_profile_set :
    sent (0x51#8 ++ (0x02#8 ++ (0x000000F0#32 ++ (0x02#8 ++ 0#128)))) = .profileSet 0 2 0xF0 2 := by decide +kernel
theorem test_reads_alert_ack : sent (0x65#8 ++ (0x0400#16 ++ 0#160)) = .alertAck 0 0x0400 := by decide +kernel

/-! ### The correcting code: the worked decode cases of chapter 1 -/

/-- The data of the stored codeword: byte 0 = 0x05, byte 1 = 0x01, byte 7 = 0x80. -/
def stored : Data := 0x8000000000000105

theorem test_code_check_byte : checkOf stored = 0x47 := by decide +kernel
theorem test_code_case_B : report (flipBit (encode stored) 3) =
    { verdict := .corrected 3, syndrome := 0x0E, data := stored, fixed := some (0x47#8 ++ stored) } := by decide +kernel
theorem test_code_case_C : report (flipBit (encode stored) 70) =
    { verdict := .corrected 70, syndrome := 0x40, data := stored, fixed := some (encode stored) } := by decide +kernel
theorem test_code_case_D : report (encode stored ^^^ 3) =
    { verdict := .uncorrectable, syndrome := 0x0C, data := 0x8000000000000106, fixed := none } := by decide +kernel
theorem test_code_case_E : (report (flipBit (flipBit (encode stored) 18) 67)).verdict = .poison := by decide +kernel
theorem test_code_case_F : (report (encode stored ^^^ 7)).verdict = .corrected 64 ∧
    (report (encode stored ^^^ 7)).data = 0x8000000000000102 := by decide +kernel
theorem test_code_case_H : (report (flipBit marker 67)).verdict = .corrected 18 ∧
    (report (flipBit marker 67)).data = 0x040000 := by decide +kernel
theorem test_code_case_J : report (flipBit marker 20) =
    { verdict := .uncorrectable, syndrome := 0x7F, data := 0x100000, fixed := none } := by decide +kernel

/-! ### Small states -/

/-- The state after a command, and the same state where it stopped. -/
def after (i : Instr) (s : State) : State :=
  match exec i s with
  | .next t => t
  | _ => s

/-- The result of a command's response. -/
def resultOf (i : Instr) (s : State) : Result := (after i s).response.result

/-- Channel 0 ONLINE with 1,024 physical lines: visible lines 0 to 511, spare slot n at physical line 512 + n. -/
def online : State := State.reset.modChan 0 (fun c => { c with state := .online, physLines := 1024 })

/-- A record of channel 0 in a given state. -/
def recAt (line : Nat) (st : RecState) : Record := { newRecord { channel := 0, line := line } .demand with state := st }

/-- A state with one record more. -/
def withRec (s : State) (r : Record) : State := { s with table := insertRec s.table r }

/-- Line 5 SPARED at slot 3. -/
def spared : State :=
  (withRec online { recAt 5 .spared with spareSlot := some 3 }).modChan 0 (fun c =>
    { c with slots := c.slots.set 3 .allocated })

/-- Line 5 SPARING from itself to slot 0, at the start of its migration. -/
def sparing : State := online |> (withRec · (recAt 5 .hot)) |> (fun s => s.startMigration (recAt 5 .hot) 0 false)

/-- A state with a changed migration of channel 0. -/
def withMigration (s : State) (f : Migration → Migration) : State :=
  s.modChan 0 (fun c => { c with migration := c.migration.map f })

/-- No bit differs from what the part wrote. -/
def noUpsets : LineWords := Vector.replicate 8 0

/-- The bits of codeword 0 that differ from what the part wrote. -/
def upset0 (w : Codeword) : LineWords := noUpsets.set 0 w

/-- A read in flight on channel 0 of a line of zeros. -/
def flying (kind : FlightKind) (line : Nat) (loc : Loc) (s : State) : State :=
  s.modChan 0 (fun c => { c with
    flights := c.flights ++ [{ kind := kind, line := line, loc := loc, words := noUpsets, moved := false }] })

/-- A request in channel 0's queue. -/
def queued (q : QEntry) (s : State) : State :=
  s.modChan 0 (fun c => { c with queue := c.queue ++ [q], credits := c.credits - 1, nextSeq := c.nextSeq + 1 })

/-- A read of line 9 with tag 17. -/
def readReq : Request := { tag := 17, line := 9, kind := .read }

/-- A write of codeword 0 of line 9, every byte 0xFF, with tag 18. -/
def writeReq : Request := { tag := 18, line := 9, kind := .write (0#448 ++ 0xFFFFFFFFFFFFFFFF#64) 0xFF }

/-- A write of byte 0 of line 9. -/
def partReq : Request := { tag := 19, line := 9, kind := .write (0#448 ++ 0xFFFFFFFFFFFFFFFF#64) 0x01 }

/-- A place of the queue. -/
def place (req : Request) (st : Stage) : QEntry := { seq := 0, req := req, stage := st }

/-- Zero data at line 9 of channel 0. -/
def zeroLine : State := online.modChan 0 (fun c => c.writeLine (.line 9) fillPlan)

/-- Channel 0's Patrol Engine running at line 0, with zero data there. -/
def patrolling : State :=
  (online.modChan 0 (fun c => c.writeLine (.line 0) fillPlan)).modChan 0 (fun c =>
    { c with patrol := { c.patrol with state := .running } })

/-- Offers for codeword 0 of lines 0, 1 and so on. -/
def offersFor (n : Nat) : List WbEntry := (List.range n).map (fun k => { loc := .line k, cw := 0, content := encode 0 })

/-- Offers held by channel 0's Patrol Engine. -/
def heldOn (s : State) (n : Nat) : State :=
  s.modChan 0 (fun c => { c with patrol := { c.patrol with held := offersFor n } })

/-- A current read of channel 0's Patrol Engine at line 0. -/
def current (kind : PatrolKind) (decoded : Bool) : PatrolRead :=
  { kind := kind, line := 0, loc := .line 0, marks := 0, decoded := decoded, acrossReset := false }

/-- Channel 0's Patrol Engine with a read under way. -/
def reading (st : PatrolState) (r : PatrolRead) (s : State) : State :=
  s.modChan 0 (fun c => { c with patrol := { c.patrol with state := st, current := some r } })

/-! ### One step of each command -/

/-- R79: a request for the line beyond the last visible one is marked ADDRESS; a credit is used. -/
theorem test_request_address :
    (((after (.requestArrival 0 { readReq with line := 512 }) online).chan 0).queue.map (fun q => q.stage)) =
        [.refused .address] ∧
      ((after (.requestArrival 0 readReq) online).chan 0).credits = 31 := by decide +kernel

/-- R78: without a credit the request is dropped and PROTOCOL is raised. -/
theorem test_request_protocol :
    (after (.requestArrival 0 readReq) (online.modChan 0 (fun c => { c with credits := 0 }))).causes = 0x800 := by
  decide +kernel

/-- R80: the REFUSED response leaves and returns its credit. -/
theorem test_response_leaves :
    ((after (.responseDeparture 0) (queued (place readReq (.refused .notReady)) online)).chan 0).response =
        some (.refused 17 .notReady) ∧
      ((after (.responseDeparture 0) (queued (place readReq (.refused .notReady)) online)).chan 0).credits = 32 := by
  decide +kernel

/-- R20, R81: the read of a SPARED line goes to its spare slot. -/
theorem test_demand_read_redirected :
    (((after (.demandReadIssue 0) ((queued (place { readReq with line := 5 } .waiting) spared).modChan 0 (fun c =>
      c.writeLine (.slot 3) fillPlan))).chan 0).flights.map (fun f => f.loc)) = [.slot 3] := by decide +kernel

/-- R83, and the worked case of chapter 5: an UNCORRECTABLE codeword owes a poison write, and its record is created HOT at
score 1023. -/
theorem test_demand_read_decode :
    (((after (.demandReadDecode 0 (upset0 3)) (flying (.demand 0) 9 (.line 9)
        (queued (place readReq .readIssued) online))).chan 0).owed.map (fun o => o.cws)) = [1] ∧
      ((after (.demandReadDecode 0 (upset0 3)) (flying (.demand 0) 9 (.line 9)
        (queued (place readReq .readIssued) online))).table.map (fun r => (r.state, r.score, r.spareWanted))) =
        [(.sparing, 1023, true)] := by decide +kernel

/-- R86: the full codeword is encoded from the request's bytes. -/
theorem test_demand_write :
    dramGet ((after (.demandWriteIssue 0) (queued (place writeReq .waiting) online)).chan 0).dram 72 =
      some (encode 0xFFFFFFFFFFFFFFFF) := by decide +kernel

/-- R87: a partial codeword makes a merge read. -/
theorem test_merge_read :
    (((after (.mergeReadIssue 0) (queued (place partReq .waiting) zeroLine)).chan 0).flights.map (fun f => f.kind)) =
      [.merge 0] := by decide +kernel

/-- The probe of a line without a record. -/
def plainProbe : Probe := { loc := .line 9, sparing := false, second := none, retry := 0, count := 0 }

/-- R89, and the worked case of chapter 5: a partial codeword that reads POISON makes the outcome POISON_KEPT. -/
theorem test_merge_decode_poison_kept :
    (((after (.mergeReadDecode 0 (upset0 marker)) (flying (.merge 0) 9 (.line 9)
      (queued (place partReq (.mergeIssued plainProbe)) online))).chan 0).queue.map (fun q =>
        match q.stage with
        | .mergeDecoded _ plan o => (plan.get 0, plan.get 1, o)
        | _ => (.keep, .keep, .done))) = [(.marker, .keep, .poisonKept)] := by decide +kernel

/-- R88: the merged codeword is encoded anew. -/
theorem test_merge_write :
    dramGet ((after (.mergeWriteIssue 0) (queued (place partReq
      (.mergeDecoded plainProbe ((Vector.replicate 8 .keep).set 0 (.word (encode 0xFF))) .done)) online)).chan 0).dram
      72 = some (encode 0xFF) := by decide +kernel

/-- A poison write owed to codeword 1 of line 9. -/
def owing : State :=
  online.modChan 0 (fun c => { c with owed := [{ line := 9, loc := .line 9, cws := 2, owner := .patrol }] })

/-- R84, R24: the marker is written and the record's poison set takes the codeword. -/
theorem test_poison_write :
    dramGet ((after (.poisonWriteIssue 0) owing).chan 0).dram 73 = some marker ∧
      ((after (.poisonWriteIssue 0) (withRec owing (recAt 9 .watch))).table.map (fun r => r.poison)) = [2] := by
  decide +kernel

/-- A write-back waiting for codeword 2 of line 9. -/
def writingBack : State :=
  online.modChan 0 (fun c => { c with wbq := [{ loc := .line 9, cw := 2, content := encode 7 }], demandCount := 8 })

/-- R94, R97: the entry's content is written as it stands, and the consecutive-demand count becomes 0. -/
theorem test_write_back :
    dramGet ((after (.writeBackIssue 0) writingBack).chan 0).dram 74 = some (encode 7) ∧
      ((after (.writeBackIssue 0) writingBack).chan 0).demandCount = 0 := by decide +kernel

/-- R75: the last fill write makes the channel ONLINE and raises CHANNEL_READY. -/
theorem test_fill_write_last :
    ((after (.fillWriteIssue 0) (online.modChan 0 (fun c => { c with state := .initializing, fillProgress := 1023 }))
        ).chan 0).state = .online ∧
      (after (.fillWriteIssue 0) (online.modChan 0 (fun c => { c with state := .initializing, fillProgress := 1023 }))
        ).causes = 0x100 := by decide +kernel

/-- Line 5 SPARING, with zero data at its source. -/
def copying : State := sparing.modChan 0 (fun c => c.writeLine (.line 5) fillPlan)

/-- R153: the copy read spends one unit of budget and creates the held copy. -/
theorem test_copy_read :
    ((after (.copyReadIssue 0) copying).chan 0).budget = 7 ∧
      (((after (.copyReadIssue 0) copying).chan 0).migration.bind (fun m => m.held)) = some heldUnread := by
  decide +kernel

/-- A copy read in flight, its codeword 0 overlaid by the data of a demand write. -/
def copyFlying : State :=
  withMigration (flying (.copy false) 5 (.line 5) sparing) (fun m =>
    { m with inFlight := true, held := some (heldUnread.set 0 { content := .data 6, overlaid := true }) })

/-- R154, and step 4 of the worked case of chapter 8: an overlaid codeword keeps the host's data. -/
theorem test_copy_decode_overlaid :
    (((after (.copyReadDecode 0 (upset0 8)) copyFlying).chan 0).migration.bind (fun m => m.held)).map (fun h =>
      ((h.get 0).content, (h.get 1).content)) = some (.data 6, .data 0) := by decide +kernel

/-- A held copy waiting for its copy write: data 6 in codeword 0, POISON in codeword 5. -/
def copyHeld : State :=
  withMigration sparing (fun m => { m with
    phase := .copyWrite
    held := some ((Vector.replicate 8 { content := .data 6, overlaid := false }).set 5
      { content := .poison, overlaid := false }) })

/-- R156: the held copy is written to the target slot, POISON entries as the marker. -/
theorem test_copy_write :
    dramGet ((after (.copyWriteIssue 0) copyHeld).chan 0).dram 4096 = some (encode 6) ∧
      dramGet ((after (.copyWriteIssue 0) copyHeld).chan 0).dram 4101 = some marker := by decide +kernel

/-- A migration waiting for its verify read, with zero data written to its target. -/
def verifying : State :=
  withMigration (sparing.modChan 0 (fun c => c.writeLine (.slot 0) fillPlan)) (fun m => { m with
    phase := .verifyRead, copyWritten := true
    held := some ((Vector.replicate 8 { content := .data 0, overlaid := false }).set 5
      { content := .poison, overlaid := false }) })

/-- R159: the expected poison is the held copy's POISON entries. -/
theorem test_verify_read :
    (((after (.verifyReadIssue 0) verifying).chan 0).migration.map (fun m => (m.expected, m.inFlight))) =
      some (0x20, true) := by decide +kernel

/-- A verify read in flight at the target slot. -/
def verifyFlying : State :=
  withMigration (flying (.verify false) 5 (.slot 0) sparing) (fun m => { m with
    phase := .verifyRead, copyWritten := true, inFlight := true, held := some heldUnread })

/-- R31, R162: all CLEAN commits the record to SPARED at the target slot. -/
theorem test_verify_commits :
    ((after (.verifyReadDecode 0 noUpsets) verifyFlying).table.map (fun r => (r.state, r.spareSlot))) =
        [(.spared, some 0)] ∧
      (after (.verifyReadDecode 0 noUpsets) verifyFlying).causes = 0x020 := by decide +kernel

/-- R160, and step 2 of the worked case of chapter 8: a CE fails the verify, the slot becomes DEFECTIVE and the next FREE one
is the target. -/
theorem test_verify_retries :
    ((after (.verifyReadDecode 0 (upset0 8)) verifyFlying).chan 0).slots.get 0 = .defective ∧
      (((after (.verifyReadDecode 0 (upset0 8)) verifyFlying).chan 0).migration.map (fun m => (m.target, m.retry))) =
        some (1, 1) := by decide +kernel

/-- R106: an ordinary read of the ready line, one unit of budget spent. -/
theorem test_patrol_issue :
    (((after (.patrolIssueStep 0) patrolling).chan 0).flights.map (fun f => f.loc)) = [.line 0] ∧
      ((after (.patrolIssueStep 0) patrolling).chan 0).budget = 7 := by decide +kernel

/-- R111, R116, and the worked case of chapter 5: a superseded codeword gets no offer, another does. -/
theorem test_patrol_decode_superseded :
    ((after (.patrolReadDecode 0 ((upset0 8).set 1 8)) (flying .patrol 0 (.line 0)
      (reading .running { current .ordinary false with marks := 1 } online))).chan 0).wbq =
      [{ loc := .line 0, cw := 1, content := 0 }] := by decide +kernel

/-- R107: the position moves to the next line. -/
theorem test_patrol_finish :
    ((after (.patrolReadFinish 0) (reading .running (current .ordinary true) online)).chan 0).patrol.position = 1 := by
  decide +kernel

/-- R108: after the last visible line a pass ends; CONTINUOUS waits for a slot start. -/
theorem test_patrol_finish_pass_end :
    ((fun p : PatrolEngine => (p.position, p.pass, p.startWait)) ((after (.patrolReadFinish 0)
      ((reading .running (current .ordinary true) online).modChan 0 (fun c =>
        c.modPatrol (fun p => { p with position := 511 })))).chan 0).patrol) = (0, 1, true) := by decide +kernel

/-- R125, R134: the next slot opens 100 microseconds later with a fresh budget. -/
theorem test_slot_end :
    (after .slotEnd online).cadence.slotIndex = some 1 ∧ (after .slotEnd online).cadence.slotEnd = some 200 ∧
      ((after .slotEnd (online.modChan 0 (fun c => { c with budget := 0 }))).chan 0).budget = 8 := by decide +kernel

/-- Frames from BEAT, the last one at the start. -/
def external : State :=
  { online with
    settings := { online.settings with cadenceSource := .external }
    cadence := { online.cadence with activeSource := .external, watchdogRef := some 0 } }

/-- R127, R132: a BEAT begins a frame, which takes the pending phase. -/
theorem test_beat :
    (after .beat { external with cadence := { external.cadence with pendingPhase := some .auction } }).cadence =
      { external.cadence with activePhase := .auction } := by decide +kernel

/-- R126: BEAT has no effect while CADENCE_SOURCE is INTERNAL. -/
theorem test_beat_internal : (after .beat online).cadence = online.cadence := by decide +kernel

/-- No slot open, so that the watchdog is the next to act. -/
def lastBeat : State := { external with cadence := { external.cadence with slotIndex := none, slotEnd := none } }

/-- R129: the expiry raises CADENCE_LOST and turns the active source to INTERNAL. -/
theorem test_watchdog_expiry :
    (after .watchdogExpiry lastBeat).causes = 0x200 ∧
      (after .watchdogExpiry lastBeat).cadence.activeSource = .internal ∧
      (after .watchdogExpiry lastBeat).now = 10000 := by decide +kernel

/-- R201: RESET discards the table, not DRAM. -/
theorem test_reset_assert :
    (after .resetAssert (withRec zeroLine (recAt 5 .hot))).table = [] ∧
      dramGet ((after .resetAssert zeroLine).chan 0).dram 72 = some 0 := by decide +kernel

/-- R202: each channel has 32 credits when the reset ends. -/
theorem test_reset_end :
    ((after (.resetEnd true) { online with resetAsserted := true }).chan 0).credits = 32 ∧
      (after (.resetEnd true) { online with resetAsserted := true }).shift = .ignoring := by decide +kernel

/-- The state of the sequence of errors on the link, before T2 and before T3. -/
def linkLimit2 (errors : Nat) : State :=
  { State.reset with settings := { State.reset.settings with linkErrorLimit := 2 }, linkErrors := errors }

/-- T3 of the sequence of errors on the link: summary 0x82 and LINK_FAULT. -/
theorem test_link_short :
    (after (.linkShort 104) (linkLimit2 1)).response = { code := 0, result := .short, summary := 0x82, payload := 0 } ∧
      (after (.linkShort 104) (linkLimit2 1)).causes = 0x400 := by decide +kernel

/-- T2 of that sequence: the code of the command that was lost, summary 0x01. -/
theorem test_link_check_error :
    (after (.linkCheckError 0 0x10) (linkLimit2 0)).response =
      { code := 0x10, result := .checkError, summary := 0x01, payload := 0 } := by decide +kernel

theorem test_unknown : (after (.unknown 0 0x7F) online).response =
    { code := 0x7F, result := .unknown, summary := 0, payload := 0 } := by decide +kernel

/-- T4 of that sequence: the NOP's summary is 0x80 while LINK_FAULT stands, and the count goes back to 0. -/
theorem test_nop :
    (after (.nop 48) { linkLimit2 2 with causes := 0x400 }).response.summary = 0x80 ∧
      (after (.nop 48) { linkLimit2 2 with causes := 0x400 }).linkErrors = 0 := by decide +kernel

/-- T5 of that sequence: payload bytes 4 and 5 are 0x0400 and byte 6 is 0. -/
theorem test_status_device :
    payloadHalf (after (.status 0 0) { online with causes := 0x400 }).response.payload 4 = 0x0400 ∧
      payloadByte (after (.status 0 0) { online with causes := 0x400 }).response.payload 6 = 0 := by decide +kernel

/-- R198: channel 0's page gives its number, its state and its budget of 8. -/
theorem test_status_channel :
    payloadByte (after (.status 0 1) online).response.payload 1 = 2 ∧
      payloadByte (after (.status 0 1) online).response.payload 16 = 8 := by decide +kernel

/-- R194, R195: W_REPEAT is 48 after reset. -/
theorem test_get_setting : (after (.getSetting 0 0x11) online).response.payload = 0x11#8 ++ (48#32 ++ 0#120) := by
  decide +kernel

/-- R196: a value above the range is stored as the largest, with CLAMPED. -/
theorem test_set_setting :
    (after (.setSetting 0 0x22 40) online).settings.slotCount = 32 ∧
      resultOf (.setSetting 0 0x22 40) online = .clamped := by decide +kernel

/-- R73: 1 to 1,023 are stored as 1,024; an ONLINE channel gives STATE. -/
theorem test_set_phys_lines :
    ((after (.setPhysLines 0 0 1023) State.reset).chan 0).physLines = 1024 ∧
      resultOf (.setPhysLines 0 0 2000) online = .state := by decide +kernel

/-- R131: a change to EXTERNAL starts the watchdog. -/
theorem test_set_cadence_source :
    (after (.setCadenceSource 0 1) online).cadence.watchdogRef = some 0 ∧
      resultOf (.setCadenceSource 0 2) online = .range := by decide +kernel

/-- R128: a timeout that has already passed makes the watchdog expire at the change. -/
theorem test_set_cadence_timeout :
    (after (.setCadenceTimeout 0 100) { external with now := 5000 }).cadence.activeSource = .internal ∧
      (after (.setCadenceTimeout 0 6000) { external with now := 5000 }).cadence.activeSource = .external := by
  decide +kernel

/-- R118: FOCUS_INTERVAL 0 clears the focus count. -/
theorem test_set_focus_interval :
    ((after (.setFocusInterval 0 0) (online.modChan 0 (fun c =>
      c.modPatrol (fun p => { p with focusCount := 5 })))).chan 0).patrol.focusCount = 0 := by decide +kernel

/-- R176: bits 12 and up name no cause. -/
theorem test_set_alert_mask :
    (after (.setAlertMask 0 0x1081) online).settings.alertMask = 0x081 ∧
      resultOf (.setAlertMask 0 0x1081) online = .clamped := by decide +kernel

/-- R165, R32: SOFT_RESET returns a SPARING record to HOT without setting hold. -/
theorem test_soft_reset :
    ((after (.softReset 0) sparing).table.map (fun r => (r.state, r.hold))) = [(.hot, false)] ∧
      ((after (.softReset 0) sparing).chan 0).slots.get 0 = .free := by decide +kernel

theorem test_lookup : resultOf (.lookup 0 0 5) spared = .ok ∧ resultOf (.lookup 0 0 6) spared = .notFound := by
  decide +kernel

/-- R41: the key given need not have a record. -/
theorem test_next :
    payloadQuad (after (.next 0 1 0 4 5) spared).response.payload 1 = 5 ∧
      resultOf (.next 0 1 4 0 5) spared = .notFound := by decide +kernel

/-- R42: an adopted SPARED record takes its slot. -/
theorem test_adopt :
    ((after (.adopt 0 0 7 3 2) online).chan 0).slots.get 2 = .allocated ∧
      resultOf (.adopt 0 0 7 1 2) online = .range := by decide +kernel

theorem test_pin : ((after (.pin 0 0 5) spared).table.map (fun r => r.pinned)) = [true] := by decide +kernel
theorem test_unpin :
    ((after (.unpin 0 0 5) (withRec online { recAt 5 .hot with pinned := true })).table.map (fun r => r.pinned)) =
      [false] := by decide +kernel

/-- R44: a SPARED record gives its slot back. -/
theorem test_retire :
    ((after (.retire 0 0 5) spared).chan 0).slots.get 3 = .free ∧
      ((after (.retire 0 0 5) spared).table.map (fun r => (r.state, r.spareSlot))) = [(.retired, none)] := by
  decide +kernel

theorem test_release :
    (after (.release 0 0 5) (withRec online (recAt 5 .hot))).table = [] ∧
      resultOf (.release 0 0 5) spared = .state := by decide +kernel

/-- R46, R37: a hold cleared makes a selection. -/
theorem test_clear_hold :
    ((after (.clearHold 0 0 5) (withRec online { recAt 5 .hot with hold := true, spareWanted := true })).table.map
      (fun r => (r.state, r.targetSlot))) = [(.sparing, some 0)] := by decide +kernel

/-- R150: the first FREE slot is the target; a busy unit refuses. -/
theorem test_spare :
    ((after (.spare 0 0 5) (withRec online (recAt 5 .watch))).table.map (fun r => (r.state, r.targetSlot, r.priorState))) =
        [(.sparing, some 0, some .hot)] ∧
      resultOf (.spare 0 0 6) (withRec sparing (recAt 6 .hot)) = .busy := by decide +kernel

/-- R151: the record returns to HOT with hold set, and the target slot is FREE. -/
theorem test_cancel :
    ((after (.cancel 0 0 5) sparing).table.map (fun r => (r.state, r.hold))) = [(.hot, true)] ∧
      ((after (.cancel 0 0 5) sparing).chan 0).slots.get 0 = .free := by decide +kernel

theorem test_spare_query :
    payloadHalf (after (.spareQuery 0 0) spared).response.payload 0 = 511 ∧
      payloadHalf (after (.spareQuery 0 0) spared).response.payload 6 = 0 := by decide +kernel
theorem test_spare_slot :
    payloadQuad (after (.spareSlot 0 0 3) spared).response.payload 3 = 5 ∧
      payloadByte (after (.spareSlot 0 0 3) spared).response.payload 1 = 0 := by decide +kernel

/-- Slot 4 DEFECTIVE. -/
def defective : State := online.modChan 0 (fun c => { c with slots := c.slots.set 4 .defective, exhausted := true })

/-- R145: the slot becomes FREE and the exhaustion flag is cleared. -/
theorem test_spare_restore :
    ((after (.spareRestore 0 0 4) defective).chan 0).slots.get 4 = .free ∧
      ((after (.spareRestore 0 0 4) defective).chan 0).exhausted = false := by decide +kernel

/-- R68: the last line is brought below the largest visible line count. -/
theorem test_region_set :
    ((after (.regionSet 0 2 1 1 100 600 0) online).windows.get 2).last = 511 ∧
      resultOf (.regionSet 0 2 1 1 512 600 0) online = .range := by decide +kernel
theorem test_region_get : payloadByte (after (.regionGet 0 7) online).response.payload 11 = 1 := by decide +kernel

/-- The worked case of chapter 4: T_SPARE 30 below T_HOT 40 is stored as 40, with CLAMPED. -/
theorem test_class_set :
    ((after (.classSet 0 1 40 30 1 1) online).policy .standard).tSpare = 40 ∧
      resultOf (.classSet 0 1 40 30 1 1) online = .clamped := by decide +kernel
theorem test_class_get : payloadHalf (after (.classGet 0 0) online).response.payload 3 = 160 := by decide +kernel

/-- R74: a DISABLED channel with PHYS_LINES 0 gives RANGE. -/
theorem test_channel_fill :
    resultOf (.channelFill 0 1) online = .range ∧
      ((after (.channelFill 0 0) (online.modChan 0 (fun c => { c with state := .disabled }))).chan 0).state =
        .initializing := by decide +kernel
theorem test_channel_online :
    ((after (.channelOnline 0 0) (online.modChan 0 (fun c => { c with state := .disabled }))).chan 0).state = .online ∧
      resultOf (.channelOnline 0 0) online = .state := by decide +kernel
theorem test_channel_offline :
    ((after (.channelOffline 0 0) online).chan 0).state = .disabled ∧
      resultOf (.channelOffline 0 0) sparing = .busy := by decide +kernel

/-- Lines 0 to 9 of channel 0 UNSCRUBBED by window 0. -/
def windowed : State :=
  online.setWindow 0 { enabled := true, channels := 1, first := 0, last := 9, cls := .unscrubbed }

/-- R105, R67: the engine comes to the first patrolled line. -/
theorem test_patrol_start :
    ((after (.patrolStart 0 0 1 1 3) windowed).chan 0).patrol.position = 10 ∧
      resultOf (.patrolStart 0 0 1 1 512) online = .range := by decide +kernel
theorem test_patrol_halt :
    ((after (.patrolHalt 0 0) patrolling).chan 0).patrol.state = .idle ∧
      ((after (.patrolHalt 0 0) (reading .running (current .ordinary false) online)).chan 0).patrol.state = .halting := by
  decide +kernel

/-- R132: naming the active phase withdraws a pending change. -/
theorem test_set_phase :
    (after (.setPhase 0 3) online).cadence.pendingPhase = some .continuous ∧
      (after (.setPhase 0 0) { online with cadence := { online.cadence with pendingPhase := some .auction } }
        ).cadence.pendingPhase = none := by decide +kernel
theorem test_profile_set :
    (after (.profileSet 0 2 0xF0 20) online).profile .auction = { mask := 0xF0, ops := 15 } ∧
      resultOf (.profileSet 0 2 0xF0 20) online = .clamped := by decide +kernel
theorem test_profile_get : payloadQuad (after (.profileGet 0 3) online).response.payload 1 = 0xF0 := by decide +kernel

/-- Step 1 of the worked case of chapter 9: a CE at 11 of codeword 2. -/
def ceHeld : Capture :=
  { outcome := .ce, source := .patrol, line := 600, codeword := 2, bit := some 11, syndrome := 0x25, tag := none
    cls := .standard, slot := none }

/-- A state that holds that capture. -/
def captured : State :=
  online.modChan 0 (fun c => { c with capture := some ceHeld, ceCount := 4, ueCount := 2 })

/-- R170, R193: the readout's outcome, source, line, codeword, bit and syndrome. -/
theorem test_capture_read :
    payloadQuad (after (.captureRead 0 0) captured).response.payload 4 = 600 ∧
      payloadByte (after (.captureRead 0 0) captured).response.payload 10 = 0x25 := by decide +kernel
theorem test_capture_clear :
    ((after (.captureClear 0 0) captured).chan 0).capture = none ∧
      payloadByte (after (.captureClear 0 0) captured).response.payload 0 = 1 := by decide +kernel
theorem test_counts_read : payloadHalf (after (.countsRead 0 0) captured).response.payload 2 = 2 := by decide +kernel

/-- Step 7 of the worked case of chapter 9: the reply shows 4 and 2. -/
theorem test_counts_clear :
    ((after (.countsClear 0 0) captured).chan 0).ceCount = 0 ∧
      payloadHalf (after (.countsClear 0 0) captured).response.payload 0 = 4 := by decide +kernel

/-- Step 3 of the second worked case of chapter 9: PASS_DONE and UE set, the line asserted. -/
theorem test_alert_read :
    payloadHalf (after (.alertRead 0) { online with causes := 0x081 }).response.payload 0 = 0x081 ∧
      payloadByte (after (.alertRead 0) { online with causes := 0x081 }).response.payload 4 = 1 := by decide +kernel

/-- Step 5 of that case: TABLE_FULL remains, and the summary shows ALERT asserted. -/
theorem test_alert_ack :
    (after (.alertAck 0 0x0081) { online with causes := 0x091 }).causes = 0x010 ∧
      (after (.alertAck 0 0x0081) { online with causes := 0x091 }).response.summary = 0x80 := by decide +kernel

/-! ### Steps -/

/-- The front command runs and leaves the queue. -/
theorem test_step_takes_front :
    (match step { online with pending := [.pin 0 0 5, .nop 0] } with
      | .next t => some (t.pending, t.response.result)
      | _ => none) = some ([.nop 0], .notFound) := by decide +kernel

/-- With no command waiting a microsecond passes. -/
theorem test_step_idles :
    (match step online with
      | .next t => some (t.now, t.cadence.slotIndex)
      | _ => none) = some (1, some 0) := by decide +kernel

/-- The line heating to sparing of chapter 3, step 6: 119 and a repeat at 40 make 167, and spare_wanted is set. -/
theorem test_scoring_step_6 :
    (Record.applyEvent { recAt 5 .hot with score := 119, lastBit := some 40 } Settings.powerOn
      (State.reset.policy .critical) 0 (.corrected 40)).1 =
      { recAt 5 .hot with score := 167, lastBit := some 40, rep := 1, spareWanted := true } := by decide +kernel

/-- The HOT record cooling of chapter 3, pass end 1: 30 becomes 26 and the state WATCH. -/
theorem test_decay_pass_1 :
    ({ recAt 5 .hot with score := 30 } : Record).decay 3 (State.reset.policy .standard) =
      { recAt 5 .watch with score := 26, age := 1 } := by decide +kernel

/-! ### Witnesses: states and operands that meet the hypotheses of each statement

`test_meets_<Statement>` gives, clause by clause and at the ends of ranges, what meets the hypotheses of that statement. -/

theorem ready : online.LinkReady := by unfold State.LinkReady; decide +kernel
theorem ready_spared : spared.LinkReady := by unfold State.LinkReady; decide +kernel
theorem ready_sparing : sparing.LinkReady := by unfold State.LinkReady; decide +kernel
theorem ready_reset : State.reset.LinkReady := by unfold State.LinkReady; decide +kernel
theorem ready_external : external.LinkReady := by unfold State.LinkReady; decide +kernel
theorem ready_lastBeat : lastBeat.LinkReady := by unfold State.LinkReady; decide +kernel

/-- A command that answers a next state answers the state `after` gives. -/
def answers (i : Instr) (s : State) : Bool :=
  match exec i s with
  | .next _ => true
  | _ => false

theorem exec_after {i : Instr} {s : State} (h : answers i s = true) : exec i s = .next (after i s) := by
  unfold answers at h
  unfold after
  split at h
  · next t e => rw [e]
  · cases h

/-- A waiting read of a line outside the channel. -/
def outside : State := queued (place { readReq with line := 1024 } .waiting) online

/-- Frames from BEAT, at a given moment with a given end of the open slot. -/
def beating (now slotEnd : Nat) : State :=
  { external with now := now, cadence := { external.cadence with slotEnd := some slotEnd } }

theorem test_meets_StepRunsFrontCommand :
    online.pending = [] ∧ ({ online with resetAsserted := true } : State).pending = [] ∧
      (beating 99 100).resetAsserted = false ∧ (beating 99 100).cadence.watchdogRef = some 0 ∧
      (beating 99 100).pending = [] ∧ (beating 99 100).settings.cadenceTimeout = 10000 ∧
      ((beating 99 100).cadence.slotEnd = some 100 ∧ 99 < 100 ∧ 99 < 0 + 10000) ∧
      ((beating 100 100).cadence.slotIndex = some 0 ∧ (beating 100 100).now = 100 ∧ 100 < 0 + 10000) ∧
      ((beating 10000 10001).cadence.watchdogRef = some 0 ∧ (beating 10000 10001).now = 0 + 10000 ∧ 10000 < 10001) ∧
      ((beating 10000 10000).cadence.slotIndex = some 0 ∧
        (beating 10000 10000).cadence.slotEnd = some (beating 10000 10000).now ∧
        0 + (beating 10000 10000).settings.cadenceTimeout = (beating 10000 10000).now) := by decide +kernel

theorem test_meets_CommandsCompleteAndKeepQueue :
    exec .slotEnd online = .next (after .slotEnd online) ∧ exec (.demandReadIssue 0) outside = .fault .noSuchLine :=
  ⟨exec_after (by decide +kernel), by
    have h : (match exec (.demandReadIssue 0) outside with | .fault _ => true | _ => false) = true := by decide +kernel
    split at h
    · next f e => cases f; exact e
    · cases h⟩

theorem test_meets_SingleAndDoubleBitErrors : (0 : BitPos) ≠ 71 ∧ pairedPositions 0 59 = true ∧
    pairedPositions 0 71 = false := by decide +kernel

theorem test_meets_TransactionRoundTrip :
    (Instr.pin 2 1 7).wellFormed = true ∧ [true, false].length = (Instr.pin 2 1 7).extra ∧
      ((Instr.pin 2 1 7).transaction? [true, false]).isSome = true := by decide +kernel

theorem test_meets_UnreadableTransactions :
    (List.replicate 191 true).length < 192 ∧ Frame.byte 1 23 ≠ checkByte (Frame.body 1) ∧
      Frame.byte (Frame.withCheck (body0 0x66)) 23 = checkByte (Frame.body (Frame.withCheck (body0 0x66))) ∧
      Frame.byte (Frame.withCheck (body0 0x66)) 0 ∉ assignedCodes := by decide +kernel

theorem test_meets_TransactionsOfTheManual : (0xE2 : Byte) ≠ 0xE3 := by decide

theorem test_meets_LinkErrorsCountAndAnswer :
    State.reset.LinkReady ∧ 1 = min 15 (State.reset.linkErrors + 1) ∧
      ({ State.reset with linkErrors := 15 } : State).LinkReady ∧
      15 = min 15 (({ State.reset with linkErrors := 15 } : State).linkErrors + 1) :=
  ⟨ready_reset, by decide +kernel, by unfold State.LinkReady; decide +kernel, by decide +kernel⟩

theorem test_meets_LinkIgnoresResetPeriods :
    onLink (.nop 0) = true ∧ ({ online with resetAsserted := true } : State).resetAsserted = true ∧
      online.resetAsserted = false ∧ ({ online with shift := .ignoring } : State).shift = .ignoring := by
  decide +kernel

theorem test_meets_RefusedCommandsChangeNothing :
    onLink (.lookup 0 0 6) = true ∧ online.LinkReady ∧
      exec (.lookup 0 0 6) online = .next (after (.lookup 0 0 6) online) ∧
      (after (.lookup 0 0 6) online).response.result.isRefusal = true :=
  ⟨by decide, ready, exec_after (by decide +kernel), by decide +kernel⟩

theorem test_meets_ChannelByteAboveThreeIsRange :
    online.LinkReady ∧ 4 ≤ (4 : Byte).toNat ∧ 4 ≤ (0xFF : Byte).toNat := ⟨ready, by decide, by decide⟩

theorem test_meets_NopOnlyAnswers : online.LinkReady := ready

theorem test_meets_StatusPages : online.LinkReady ∧ 5 ≤ (5 : Byte).toNat ∧ 5 ≤ (0xFF : Byte).toNat :=
  ⟨ready, by decide, by decide⟩

/-- The identifiers that the settings table gives. -/
def settingIds : List Byte :=
  [0x00, 0x01, 0x02, 0x03, 0x10, 0x11, 0x12, 0x18, 0x20, 0x21, 0x22, 0x23, 0x24, 0x30, 0x31]

theorem test_meets_GetSettingReadsAndUnknownAnswers :
    online.LinkReady ∧ (∃ ch : ChanId, (0x03 : Byte) = BitVec.ofNat 8 ch.val ∧ 0 = (online.chan ch).physLines) ∧
      4 = online.settings.linkErrorLimit ∧ (0x32 : Byte) ∉ settingIds ∧ (0x04 : Byte) ∉ settingIds :=
  ⟨ready, ⟨3, by decide, by decide +kernel⟩, by decide +kernel, by decide, by decide⟩

theorem test_meets_NumericSettingsAreStored :
    online.LinkReady ∧ 1 = min 255 (max 1 (0 : BitVec 32).toNat) ∧ 255 = min 255 (max 1 (256 : BitVec 32).toNat) ∧
      7 = min 7 (max 1 (7 : BitVec 32).toNat) ∧ 2 = min 32 (max 2 (1 : BitVec 32).toNat) ∧
      1000 = min 1000 (max 1 (1001 : BitVec 32).toNat) ∧ (0x32 : Byte) ∉ settingIds :=
  ⟨ready, by decide, by decide, by decide, by decide, by decide, by decide⟩

theorem test_meets_PhysLinesSetting :
    online.LinkReady ∧ (online.chan 0).state ≠ .disabled ∧
      (State.reset.LinkReady ∧ (State.reset.chan 0).state = .disabled ∧ (∀ r ∈ State.reset.table, r.key.channel ≠ 0) ∧
        (State.reset.chan 0).patrol.held = [] ∧
        ((heldOn State.reset 5).chan 0).patrol.held.Pairwise (fun a b => a.same b = false) ∧
        (∀ w ∈ ((heldOn State.reset 5).chan 0).wbq ++ ((heldOn State.reset 5).chan 0).patrol.held, w.loc ≠ .slot 0) ∧
        (State.reset.chan 0).physLines = (if (0 : BitVec 32).toNat = 0 then 0 else 1024)) ∧
      (State.reset.chan 0).physLines ≠ min 268435456 (max 1024 (1 : BitVec 32).toNat) ∧
      (State.reset.chan 0).physLines ≠ min 268435456 (max 1024 (0xFFFFFFFF : BitVec 32).toNat) :=
  ⟨ready, by decide +kernel, ⟨ready_reset, by decide +kernel, by decide +kernel, by decide +kernel, by decide +kernel,
    by decide +kernel, by decide +kernel⟩, by decide +kernel, by decide +kernel⟩

theorem test_meets_CadenceSourceSetting :
    online.LinkReady ∧ 2 ≤ (2 : BitVec 32).toNat ∧ online.settings.cadenceSource = .internal ∧
      (external.LinkReady ∧ external.settings.cadenceSource = .external ∧
        ({ external with cadence := { external.cadence with activeSource := .internal } } : State).cadence.activeSource =
          .internal ∧
        external.cadence.activeSource = .external ∧ external.cadence.slotIndex = some 0) ∧
      (lastBeat.LinkReady ∧ lastBeat.settings.cadenceSource = .external ∧ lastBeat.cadence.activeSource = .external ∧
        lastBeat.cadence.slotIndex = none) :=
  ⟨ready, by decide, by decide +kernel,
    ⟨ready_external, by decide +kernel, rfl, by decide +kernel, by decide +kernel⟩,
    ⟨ready_lastBeat, by decide +kernel, by decide +kernel, by decide +kernel⟩⟩

theorem test_meets_TimeoutFocusAndMaskSettings :
    external.LinkReady ∧ external.cadence.watchdogRef = some 0 ∧
      (100 = min 100000 (max 100 (99 : BitVec 32).toNat) ∧ external.now < 0 + 100) ∧
      (100 ≠ external.settings.cadenceTimeout ∧ 0 + 100 ≤ ({ external with now := 100 } : State).now) ∧
      100000 = min 100000 (max 100 (100001 : BitVec 32).toNat) ∧
      (64 = min 64 (65 : BitVec 32).toNat ∧ (64 : Nat) ≠ 0) :=
  ⟨ready_external, by decide +kernel, ⟨by decide, by decide +kernel⟩, ⟨by decide +kernel, by decide⟩, by decide,
    by decide⟩

theorem test_meets_SoftResetRestarts :
    sparing.LinkReady ∧ external.LinkReady ∧ external.cadence.activeSource = .external ∧
      (sparing.chan 0).patrol.held = [] := ⟨ready_sparing, ready_external, by decide +kernel, by decide +kernel⟩

/-- R104, R114: of six held offers the emptied Write-back Queue takes four. -/
theorem test_soft_reset_offers_again :
    ((after (.softReset 0) (heldOn writingBack 6)).chan 0).wbq = offersFor 4 ∧
      ((after (.softReset 0) (heldOn writingBack 6)).chan 0).patrol.held.length = 2 := by decide +kernel

theorem tableSound_spared : spared.TableSound := by
  unfold State.TableSound Record.InRange
  decide +kernel

theorem test_meets_LookupAndNextFindRecords :
    spared.LinkReady ∧ spared.TableSound ∧ (∃ r ∈ spared.table, r.key = { channel := 0, line := (5 : BitVec 32).toNat }) ∧
      (∀ r ∈ spared.table, r.key ≠ { channel := 0, line := (6 : BitVec 32).toNat }) ∧
      filterArg 5 = some .any ∧ filterArg 0 = some (.only .watch) ∧
      (∃ r ∈ spared.table, Filter.any.passes r.state = true ∧
        Key.lt { channel := 0, line := (4 : BitVec 32).toNat } r.key = true ∧
        ∀ q ∈ spared.table, Filter.any.passes q.state = true →
          Key.lt { channel := 0, line := (4 : BitVec 32).toNat } q.key = true → Key.lt q.key r.key = false) ∧
      (∀ q ∈ spared.table, Filter.any.passes q.state = true →
        Key.lt { channel := 0, line := (5 : BitVec 32).toNat } q.key = false) ∧ 4 ≤ (4 : Byte).toNat ∧
      (∀ q ∈ spared.table, (Filter.only .watch).passes q.state = false) ∧
      (2 ≤ (2 : Byte).toNat ∧ filterArg 5 ≠ none ∧ 6 ≤ (6 : Byte).toNat) :=
  ⟨ready_spared, tableSound_spared, by decide +kernel, by decide +kernel, rfl, rfl, by decide +kernel, by decide +kernel,
    by decide, by decide +kernel, by decide⟩

/-- R191: a flag of 2 and a filter code of 6 are refused; R41: with no flag and nothing that passes, NOT_FOUND. -/
theorem test_next_refusals :
    resultOf (.next 0 2 0 0 5) spared = .range ∧ resultOf (.next 0 0 0 0 6) spared = .range ∧
      resultOf (.next 0 0 0 0 0) spared = .notFound := by decide +kernel

theorem test_meets_AdoptCreatesRecord :
    spared.LinkReady ∧ (spared.chan 0).visible ≤ (512 : BitVec 32).toNat ∧ (1 : Byte) ∉ [(0 : Byte), 3, 4] ∧
      512 ≤ (512 : BitVec 16).toNat ∧ (511 : BitVec 32).toNat < (spared.chan 0).visible ∧
      (3 : Byte) ∈ [(0 : Byte), 3, 4] ∧ (511 : BitVec 16).toNat < 512 ∧
      (spared.rec? 0 (5 : BitVec 32).toNat).isSome = true ∧ spared.rec? 0 (511 : BitVec 32).toNat = none ∧
      spared.table.length < 1024 ∧ (spared.chan 0).slots.get 3 ≠ .free ∧ (spared.chan 0).slots.get 511 = .free ∧
      1024 ≤ ({ spared with table := List.replicate 1024 (recAt 5 .hot) } : State).table.length ∧
      ({ spared with table := List.replicate 1024 (recAt 5 .hot) } : State).rec? 0 (511 : BitVec 32).toNat = none :=
  ⟨ready_spared, by decide +kernel⟩

theorem test_meets_PinUnpinAndClearHold :
    online.LinkReady ∧ (withRec online (recAt 5 .retired)).rec? 0 (5 : BitVec 32).toNat = some (recAt 5 .retired) ∧
      (withRec online { recAt 5 .hot with hold := true }).rec? 0 (5 : BitVec 32).toNat =
        some { recAt 5 .hot with hold := true } ∧
      (withRec online (recAt 5 .hot)).rec? 0 (5 : BitVec 32).toNat = some (recAt 5 .hot) ∧
      (withRec online (recAt 5 .hot)).LinkReady ∧ (withRec online (recAt 5 .retired)).LinkReady := by
  unfold State.LinkReady
  decide +kernel

/-- Line 1 RETIRED, line 2 WATCH, line 5 SPARED at slot 3, line 6 SPARING to slot 0 with its verify read in flight, and slot 4
DEFECTIVE. -/
def mixed (retry : Nat) : State :=
  { online with
    table := [recAt 1 .retired, recAt 2 .watch, { recAt 5 .spared with spareSlot := some 3 },
      { recAt 6 .sparing with targetSlot := some 0, priorState := some .hot }] }.modChan 0 (fun c => { c with
    slots := ((c.slots.set 0 .allocated).set 3 .allocated).set 4 .defective
    migration := some
      { line := 6, target := 0, source := .line 6, phase := .verifyRead, inFlight := true, copyWritten := true
        retry := retry, held := some heldUnread, expected := 0 }
    flights := [{ kind := .verify false, line := 6, loc := .slot 0, words := noUpsets, moved := false }] })

theorem ready_mixed (n : Nat) : (mixed n).LinkReady := ⟨rfl, rfl⟩

theorem mixed_table (n : Nat) : (mixed n).table = (mixed 0).table := rfl

theorem mixed_tableSound : (mixed 0).TableSound := by
  unfold State.TableSound Record.InRange
  decide +kernel

theorem mixed_shaped : ∀ r ∈ (mixed 0).table, r.Shaped := by
  have h : (mixed 0).table = [recAt 1 .retired, recAt 2 .watch, { recAt 5 .spared with spareSlot := some 3 },
      { recAt 6 .sparing with targetSlot := some 0, priorState := some .hot }] := rfl
  rw [h]
  simp only [List.forall_mem_cons]
  exact ⟨⟨rfl, rfl, rfl⟩, ⟨rfl, rfl, rfl⟩, ⟨rfl, rfl, rfl⟩, ⟨rfl, rfl, by decide⟩, by simp⟩

/-- A channel's slots agree with what the records of a table name on that channel. -/
def slotsAgree (t : List Record) (ch : ChanId) (l : List SlotState) : Bool :=
  l.zipIdx.all (fun p => (p.1 == .allocated) == t.any (fun r => r.key.channel == ch &&
    (r.spareSlot.map (fun i => i.val) == some p.2 || r.targetSlot.map (fun i => i.val) == some p.2)))

theorem slotsNamed_of {s : State} (h : ∀ ch : ChanId, slotsAgree s.table ch (s.chan ch).slots.toList = true) :
    s.SlotsNamed := by
  intro ch i
  have hm : ((s.chan ch).slots.get i, i.val) ∈ (s.chan ch).slots.toList.zipIdx := by
    rw [List.mk_mem_zipIdx_iff_getElem?]
    simp [Vector.get_eq_getElem]
  have h1 := List.all_eq_true.mp (h ch) _ hm
  have hf (o : Option SlotId) : o.map (fun i => i.val) = some i.val ↔ o = some i := by
    cases o <;> simp [Fin.ext_iff]
  have h2 := Bool.eq_iff_iff.mp (beq_iff_eq.mp h1)
  simp only [beq_iff_eq, List.any_eq_true, Bool.and_eq_true, Bool.or_eq_true, hf] at h2
  exact h2

/-- A channel whose slots, as a list, hold no FREE slot. -/
theorem noFree_of {c : Channel} (h : SlotState.free ∉ c.slots.toList) : ∀ i : SlotId, c.slots.get i ≠ .free := by
  intro i hi
  exact h (by simp [← hi, Vector.get_eq_getElem])

theorem mixed_slotsNamed : (mixed 0).SlotsNamed := slotsNamed_of (by decide +kernel)

theorem mixed_slotsUnique : (mixed 0).SlotsUnique := by
  unfold State.SlotsUnique Record.names
  decide +kernel

/-- The migrations agree, by a check of each channel. -/
theorem agree_of {s : State} (h : ∀ ch : ChanId,
    (∀ r ∈ s.table, r.key.channel = ch →
      (r.state = .sparing ↔ ((s.chan ch).migration.map (fun m => m.line)) = some r.key.line)) ∧
    ∀ m ∈ (s.chan ch).migration,
      ∃ r ∈ s.table, r.key = { channel := ch, line := m.line } ∧ r.targetSlot = some m.target ∧ m.source = r.location) :
    s.MigrationsAgree := h

theorem mixed_agree (n : Nat) (hn : n = 0 ∨ n = 2) : (mixed n).MigrationsAgree := by
  rcases hn with rfl | rfl <;> exact agree_of (by decide +kernel)

theorem mixed_sound (n : Nat) (hn : n = 0 ∨ n = 2) : (mixed n).SparingSound := by
  refine ⟨mixed_tableSound, mixed_shaped, ?_, mixed_slotsUnique, mixed_agree n hn⟩
  rcases hn with rfl | rfl
  · exact mixed_slotsNamed
  · exact slotsNamed_of (by decide +kernel)

theorem test_meets_SoftResetRestarts_with_a_migration :
    (mixed 0).LinkReady ∧ (mixed 0).SparingSound ∧ ((mixed 0).chan 0).migration.map (fun m => m.target) = some 0 ∧
      ((heldOn (mixed 0) 6).chan 0).migration.map (fun m => m.target) = some 0 ∧
      ((heldOn (mixed 0) 6).chan 0).patrol.held.Pairwise (fun a b => a.same b = false) ∧
      ∀ w ∈ ((heldOn (mixed 0) 6).chan 0).wbq ++ ((heldOn (mixed 0) 6).chan 0).patrol.held, w.loc ≠ .slot 0 :=
  ⟨ready_mixed 0, mixed_sound 0 (.inl rfl), by decide +kernel⟩

theorem test_meets_RetireFreezesRecord :
    (mixed 0).LinkReady ∧ (mixed 0).SparingSound ∧
      ((mixed 0).rec? 0 (1 : BitVec 32).toNat).map (fun r => r.state) = some .retired ∧
      ((mixed 0).rec? 0 (2 : BitVec 32).toNat).map (fun r => r.state) = some .watch ∧
      ((mixed 0).rec? 0 (5 : BitVec 32).toNat).map (fun r => (r.state, r.spareSlot)) = some (.spared, some 3) ∧
      ((mixed 0).rec? 0 (6 : BitVec 32).toNat).map (fun r => r.state) = some .sparing ∧
      ((mixed 0).chan 0).migration.isSome = true :=
  ⟨ready_mixed 0, mixed_sound 0 (.inl rfl), by decide +kernel⟩

theorem test_meets_ReleaseRemovesRecord :
    (mixed 0).LinkReady ∧ (mixed 0).rec? 0 (0 : BitVec 32).toNat = none ∧
      ((mixed 0).rec? 0 (5 : BitVec 32).toNat).map (fun r => r.state) = some .spared ∧
      ((mixed 0).rec? 0 (6 : BitVec 32).toNat).map (fun r => r.state) = some .sparing ∧
      ((mixed 0).rec? 0 (1 : BitVec 32).toNat).map (fun r => r.state) = some .retired :=
  ⟨ready_mixed 0, by decide +kernel⟩

/-- Every slot of channel 0 ALLOCATED. -/
def slotless (s : State) : State := s.modChan 0 (fun c => { c with slots := Vector.replicate 512 .allocated })

theorem test_meets_SpareStartsMigration :
    (mixed 0).LinkReady ∧ (mixed 0).rec? 0 (0 : BitVec 32).toNat = none ∧
      ((mixed 0).rec? 0 (1 : BitVec 32).toNat).map (fun r => r.state) = some .retired ∧
      (((mixed 0).rec? 0 (5 : BitVec 32).toNat).map (fun r => r.state) = some .spared ∧
        ((mixed 0).chan 0).migration.isSome = true) ∧
      (spared.LinkReady ∧ (spared.rec? 0 (5 : BitVec 32).toNat).map (fun r => r.state) = some .spared ∧
        (spared.chan 0).migration = none ∧ (spared.chan 0).slots.get 0 = .free ∧
        ∀ j : SlotId, j < 0 → (spared.chan 0).slots.get j ≠ .free) ∧
      ((slotless spared).LinkReady ∧ ((slotless spared).chan 0).migration = none ∧
        ∀ i : SlotId, ((slotless spared).chan 0).slots.get i ≠ .free) := by
  refine ⟨ready_mixed 0, by decide +kernel, by decide +kernel, by decide +kernel, ?_, ?_⟩
  · exact ⟨ready_spared, by decide +kernel⟩
  · exact ⟨by unfold State.LinkReady; decide +kernel, by decide +kernel, noFree_of (by decide +kernel)⟩

theorem test_meets_CancelEndsMigration :
    (mixed 0).LinkReady ∧ ((mixed 0).rec? 0 (5 : BitVec 32).toNat).map (fun r => r.state) = some .spared ∧
      ((mixed 0).rec? 0 (6 : BitVec 32).toNat).map (fun r => (r.state, r.priorState)) = some (.sparing, some .hot) ∧
      ((mixed 0).chan 0).migration.map (fun m => m.line) = some (6 : BitVec 32).toNat :=
  ⟨ready_mixed 0, by decide +kernel⟩

theorem test_meets_SparePoolCommands :
    (mixed 0).LinkReady ∧ (mixed 0).SparingSound ∧ (((mixed 0).chan 0).slots.get 1 = .free ∧
      ∀ j : SlotId, j < 1 → ((mixed 0).chan 0).slots.get j ≠ .free) ∧
      (∃ r ∈ (mixed 0).table, r.key.channel = 0 ∧ r.spareSlot = some 3) ∧
      (∃ r ∈ (mixed 0).table, r.key.channel = 0 ∧ r.targetSlot = some 0) ∧
      ((mixed 0).chan 0).slots.get 511 ≠ .allocated ∧ ((mixed 0).chan 0).slots.get 0 ≠ .defective ∧
      ((mixed 0).chan 0).slots.get 4 = .defective ∧ 512 ≤ (512 : BitVec 16).toNat :=
  ⟨ready_mixed 0, mixed_sound 0 (.inl rfl), by decide +kernel⟩

/-- Channel 0 with every slot DEFECTIVE, so that SPARE_QUERY finds no FREE slot. -/
def spent : State := online.modChan 0 (fun c => { c with slots := Vector.replicate 512 .defective })

theorem test_meets_SparePoolCommands_without_free_slot :
    spent.LinkReady ∧ spent.SparingSound ∧ ∀ i : SlotId, (spent.chan 0).slots.get i ≠ .free := by
  refine ⟨by unfold State.LinkReady; decide +kernel, ⟨?_, ?_, ?_, ?_, ?_⟩, noFree_of (by decide +kernel)⟩
  · unfold State.TableSound Record.InRange; decide +kernel
  · have h : spent.table = [] := by decide +kernel
    rw [h]
    simp
  · exact slotsNamed_of (by decide +kernel)
  · unfold State.SlotsUnique Record.names; decide +kernel
  · exact agree_of (by decide +kernel)

/-- Two candidates on channel 0, of scores 300 and 280. -/
def candidates : State :=
  { online with
    table := [{ recAt 77 .hot with score := 300, spareWanted := true },
      { recAt 900 .hot with score := 280, spareWanted := true }] }

theorem test_meets_SelectionTakesBestCandidate :
    (mixed 0).TableSound ∧ ((mixed 0).chan 0).migration.isSome = true ∧
      (spared.TableSound ∧ (spared.chan 0).migration = none ∧
        ∀ r ∈ spared.table, r.key.channel = 0 → r.spareWanted = true → r.hold = false →
          (spared.policy (spared.classOf 0 r.key.line)).autoSpare = true → r.state = .retired) ∧
      (candidates.TableSound ∧ (candidates.chan 0).migration = none ∧
        ∃ r ∈ candidates.table, r.key.channel = 0 ∧ r.spareWanted = true ∧ r.hold = false ∧
          (candidates.policy (candidates.classOf 0 r.key.line)).autoSpare = true ∧ r.state = .hot ∧
          ∀ q ∈ candidates.table, q ≠ r → candidates.isCandidate 0 q = true →
            q.score < r.score ∨ (q.score = r.score ∧ r.key.line < q.key.line)) ∧
      ((candidates.chan 0).slots.get 0 = .free ∧ ∀ j : SlotId, j < 0 → (candidates.chan 0).slots.get j ≠ .free) ∧
      ((slotless candidates).TableSound ∧ ∀ i : SlotId, ((slotless candidates).chan 0).slots.get i ≠ .free) := by
  refine ⟨mixed_tableSound, by decide +kernel, ⟨tableSound_spared, by decide +kernel⟩, ⟨?_, by decide +kernel⟩,
    by decide +kernel, ?_, noFree_of (by decide +kernel)⟩ <;>
  · unfold State.TableSound Record.InRange; decide +kernel

theorem test_meets_RegionCommands :
    online.LinkReady ∧ (∀ ch : ChanId, (1 : BitVec 4).getLsbD ch.val = true → (online.chan ch).visible ≤ 512) ∧
      (∃ ch : ChanId, (1 : BitVec 4).getLsbD ch.val = true ∧ (online.chan ch).visible = 512) ∧
      (10 : BitVec 32).toNat < (11 : BitVec 32).toNat ∧ 512 ≤ (512 : BitVec 32).toNat ∧
      ((511 : BitVec 32).toNat ≤ (511 : BitVec 32).toNat ∧ (511 : BitVec 32).toNat < 512) ∧
      (∀ ch : ChanId, (0 : BitVec 4).getLsbD ch.val = true → (online.chan ch).visible ≤ 0) ∧
      (8 ≤ (8 : Byte).toNat ∧ 2 ≤ (2 : Byte).toNat ∧ 16 ≤ (16 : Byte).toNat ∧ 4 ≤ (4 : Byte).toNat) :=
  ⟨ready, by decide +kernel⟩

/-- R191: a window index of 8, a yes/no byte of 2, a channel set with bit 4 and a class code of 4 are each refused. -/
theorem test_region_set_refusals :
    resultOf (.regionSet 0 8 1 1 0 9 0) online = .range ∧ resultOf (.regionSet 0 7 2 1 0 9 0) online = .range ∧
      resultOf (.regionSet 0 7 1 16 0 9 0) online = .range ∧ resultOf (.regionSet 0 7 1 1 0 9 4) online = .range ∧
      resultOf (.regionGet 0 8) online = .range ∧ resultOf (.regionSet 0 7 1 1 0 9 3) online = .ok := by decide +kernel

theorem test_meets_ClassLookupAndCommands :
    windowed.LinkReady ∧ (windowed.windows.get 0).covers 0 9 = true ∧
      (∀ j : Fin 8, j < 0 → (windowed.windows.get j).covers 0 9 = false) ∧
      (∀ i : Fin 8, (windowed.windows.get i).covers 0 10 = false) ∧
      1 = min 1023 (max 1 (0 : BitVec 16).toNat) ∧ 1023 = min 1023 (max 1 (1024 : BitVec 16).toNat) ∧
      (4 ≤ (4 : Byte).toNat ∧ 2 ≤ (2 : Byte).toNat) :=
  ⟨⟨rfl, rfl⟩, by decide +kernel⟩

/-- R191: a class code of 4 and a yes/no byte of 2 are refused. -/
theorem test_class_refusals :
    resultOf (.classSet 0 4 1 1 0 0) online = .range ∧ resultOf (.classSet 0 3 1 1 2 0) online = .range ∧
      resultOf (.classSet 0 3 1 1 0 2) online = .range ∧ resultOf (.classGet 0 4) online = .range ∧
      resultOf (.classSet 0 3 1 1 1 1) online = .ok := by decide +kernel

/-- Channel 0 DISABLED with its lines set. -/
def off : State := online.modChan 0 (fun c => { c with state := .disabled })

/-- Channel 0 once the migration has been cancelled whose copy read owes a poison write. -/
def cancelledOwing : State :=
  after (.cancel 0 0 5) (sparing.modChan 0 (fun c => { c with
    owed := [{ line := 5, loc := .line 5, cws := 1, owner := .migration }] }))

/-- R77: with the unit idle, the channel is taken offline only once that poison write has been issued. -/
theorem test_offline_waits_for_poison_write :
    (cancelledOwing.chan 0).migration = none ∧ resultOf (.channelOffline 0 0) cancelledOwing = .busy ∧
      resultOf (.channelOffline 0 0) (after (.poisonWriteIssue 0) cancelledOwing) = .ok := by decide +kernel

theorem test_meets_ChannelStateCommands :
    online.LinkReady ∧ off.LinkReady ∧ State.reset.LinkReady ∧ (online.chan 0).state ≠ .disabled ∧
      ((State.reset.chan 0).state = .disabled ∧ (State.reset.chan 0).physLines = 0) ∧
      ((off.chan 0).state = .disabled ∧ (off.chan 0).physLines ≠ 0 ∧ (off.chan 0).patrol.held = [] ∧
        ((heldOn off 5).chan 0).patrol.held.Pairwise (fun a b => a.same b = false)) ∧
      ((online.chan 0).physLines ≠ 0 ∧ (online.chan 0).state ≠ .disabled) ∧
      ((online.chan 0).state = .online ∧ (online.chan 0).queue = [] ∧ (online.chan 0).patrol.state = .idle ∧
        (online.chan 0).migration = none ∧ (online.chan 0).owed = [] ∧
        ∀ f ∈ (online.chan 0).flights, f.kind.ofMigration = false) ∧
      (((mixed 0).chan 0).state = .online ∧ ((mixed 0).chan 0).migration.isSome = true) ∧
      ((patrolling.chan 0).state = .online ∧ (patrolling.chan 0).patrol.state = .running) ∧
      ((queued (place readReq .waiting) online).chan 0).queue ≠ [] ∧
      ((cancelledOwing.chan 0).state = .online ∧ (cancelledOwing.chan 0).owed ≠ []) ∧
      (∃ f ∈ ((mixed 0).chan 0).flights, f.kind.ofMigration = true) :=
  ⟨ready, ⟨rfl, rfl⟩, ready_reset, by decide +kernel⟩

/-- Every line of channel 0 UNSCRUBBED. -/
def unscrubbed : State :=
  online.setWindow 0 { enabled := true, channels := 1, first := 0, last := 511, cls := .unscrubbed }

theorem test_meets_PatrolStartAndHalt :
    online.LinkReady ∧ off.LinkReady ∧ (off.chan 0).state ≠ .online ∧
      ((patrolling.chan 0).state = .online ∧ (patrolling.chan 0).patrol.state = .running) ∧
      ((online.chan 0).state = .online ∧ (online.chan 0).patrol.state = .idle ∧
        (online.chan 0).visible ≤ (512 : BitVec 32).toNat) ∧
      ((windowed.chan 0).patrol.state = .idle ∧ 0 ≤ 10 ∧ 10 < (windowed.chan 0).visible ∧
        windowed.classOf 0 10 ≠ .unscrubbed ∧ ∀ k : Nat, k < 10 → windowed.classOf 0 k = .unscrubbed) ∧
      ((511 : BitVec 32).toNat < (unscrubbed.chan 0).visible ∧ unscrubbed.classOf 0 511 = .unscrubbed) ∧
      (4 ≤ (4 : Byte).toNat ∧ 2 ≤ (2 : Byte).toNat) :=
  ⟨ready, ⟨rfl, rfl⟩, by decide +kernel⟩

theorem test_meets_PatrolStartAndHalt_without_patrolled_line :
    unscrubbed.LinkReady ∧ (unscrubbed.chan 0).state = .online ∧ (unscrubbed.chan 0).patrol.state = .idle ∧
      ∀ k : Nat, 0 ≤ k → k < (unscrubbed.chan 0).visible → unscrubbed.classOf 0 k = .unscrubbed := by
  refine ⟨⟨rfl, rfl⟩, by decide +kernel, by decide +kernel, ?_⟩
  intro k _ hk
  have hv : (unscrubbed.chan 0).visible = 512 := by decide +kernel
  rw [hv] at hk
  have h : ∀ n : Fin 512, unscrubbed.classOf 0 n.val = .unscrubbed := by decide +kernel
  exact h ⟨k, hk⟩

/-- R191: a mode of 2 and a flag of 2 are refused, whatever the channel's state. -/
theorem test_patrol_start_refusals :
    resultOf (.patrolStart 0 0 2 0 0) online = .range ∧ resultOf (.patrolStart 0 0 0 2 0) off = .range := by
  decide +kernel

theorem test_meets_PhaseCommands : online.LinkReady ∧ 4 ≤ (4 : Byte).toNat ∧ 4 ≤ (0xFF : Byte).toNat :=
  ⟨ready, by decide, by decide⟩

theorem test_meets_CaptureAndAlertCommands :
    captured.LinkReady ∧ (4095 : BitVec 16).toNat < 4096 ∧ 4096 ≤ (4096 : BitVec 16).toNat :=
  ⟨⟨rfl, rfl⟩, by decide, by decide⟩

theorem test_meets_EventsScoreRecords : (recAt 5 .retired).state = .retired ∧ (recAt 5 .watch).state ≠ .retired := by
  decide

/-- A record of line 9 that a CE takes over its thresholds: HOT, spare wanted, and a notice. -/
def nearSpare : Record := { recAt 9 .watch with score := 1000 }

/-- The reports of a line whose codeword 0 has one inverted bit. -/
def ceReps : Vector Report 8 := reportsOf noUpsets (upset0 8)

/-- The settings and the policy of the class STANDARD after reset. -/
def afterCe (r : Record) : Record := r.afterEvents online.settings (online.policy .standard) ceReps

/-- A full table with one record that an eviction may take, or none. -/
def full (evictable : Bool) : State :=
  { online with
    table := { recAt 2 .watch with pinned := !evictable } :: List.replicate 1023 { recAt 3 .hot with score := 5 } }

theorem full_evicted : (recAt 2 .watch).EvictedFrom (full true).table := by
  refine ⟨List.mem_cons_self, rfl, rfl, rfl, ?_⟩
  intro x hx hne hs
  rcases List.mem_cons.mp hx with h | h
  · exact absurd h hne
  · rw [(List.mem_replicate.mp h).2] at hs
    cases hs

theorem test_meets_EventsScoreRecords_deliveries :
    (∀ i : CwIndex, ((reportsOf noUpsets noUpsets).get i).verdict = .clean) ∧
      (∃ i : CwIndex, (ceReps.get i).verdict ≠ .clean) ∧ online.classOf 0 9 = .standard ∧
      ((withRec online nearSpare).TableTakes 0 9 .demand nearSpare (afterCe nearSpare) [afterCe nearSpare] ∧
        nearSpare.NoticeGiven (afterCe nearSpare) (online.policy .standard)) ∧
      (online.TableTakes 0 9 .patrol (newRecord { channel := 0, line := 9 } .patrol)
          (afterCe (newRecord { channel := 0, line := 9 } .patrol)) [afterCe (newRecord { channel := 0, line := 9 } .patrol)] ∧
        ¬ (newRecord { channel := 0, line := 9 } .patrol).NoticeGiven
          (afterCe (newRecord { channel := 0, line := 9 } .patrol)) (online.policy .standard)) ∧
      (∃ l, (full true).TableTakes 0 9 .demand (newRecord { channel := 0, line := 9 } .demand)
        (afterCe (newRecord { channel := 0, line := 9 } .demand)) l) ∧
      ((full false).rec? 0 9 = none ∧ 1024 ≤ (full false).table.length ∧
        ∀ v ∈ (full false).table, v.state = .watch → v.pinned = false → v.poison ≠ 0) := by
  refine ⟨by decide +kernel, by decide +kernel, by decide +kernel, ⟨.inl ⟨by decide +kernel, by decide +kernel⟩, ?_⟩,
    ⟨.inr ⟨by decide +kernel, rfl, .inl ⟨by decide +kernel, by decide +kernel⟩⟩, ?_⟩,
    ⟨_, .inr ⟨by decide +kernel, rfl, .inr ⟨by decide +kernel, _, full_evicted, rfl⟩⟩⟩,
    by decide +kernel, by decide +kernel, ?_⟩
  · unfold Record.NoticeGiven; decide +kernel
  · unfold Record.NoticeGiven; decide +kernel
  · intro v hv hs hp
    rcases List.mem_cons.mp hv with h | h
    · rw [h] at hp; cases hp
    · rw [(List.mem_replicate.mp h).2] at hs; cases hs

/-- The conditions of each clause on what a read hands over to Capture and Alert: an empty record and a first UE, a first CE
or no event; a record that holds a CE and a UE; a record that keeps what it holds. -/
theorem test_meets_HandsOver :
    ((online.chan 0).capture = none ∧ (online.chan 0).ceCount ≤ 65535 ∧ (online.chan 0).ueCount ≤ 65535) ∧
      (((reportsOf noUpsets (upset0 3)).get 0).verdict = .uncorrectable ∧ ∀ j : CwIndex, ¬ j < 0) ∧
      ((ceReps.get 0).verdict.isCe = true ∧ ∀ j : CwIndex, (ceReps.get j).verdict ≠ .uncorrectable) ∧
      (captured.chan 0).capture.map (fun k => k.outcome) = some .ce ∧
      (((captured.captureOne 0 { ceHeld with outcome := .ue }).chan 0).capture.map (fun k => k.outcome) = some .ue) ∧
      (∀ j : CwIndex, ((reportsOf noUpsets noUpsets).get j).verdict ≠ .uncorrectable ∧
        ((reportsOf noUpsets noUpsets).get j).verdict.isCe = false) := by decide +kernel

theorem test_meets_RequestsJoinOrAreDropped :
    ({ online with resetAsserted := true } : State).resetAsserted = true ∧
      (online.resetAsserted = false ∧
        ((online.modChan 0 (fun c => { c with credits := 0 })).chan 0).credits = 0) ∧
      1 ≤ ((online.modChan 0 (fun c => { c with credits := 1 })).chan 0).credits := by decide +kernel

theorem test_meets_ResponsesLeaveInOrder :
    ((queued (place readReq (.refused .address)) online).chan 0).queue = [place readReq (.refused .address)] ∧
      ((queued (place { writeReq with kind := .write 0 0 } .waiting) online).chan 0).queue =
        [place { writeReq with kind := .write 0 0 } .waiting] ∧
      ((queued (place writeReq (.written .done)) online).chan 0).queue = [place writeReq (.written .done)] ∧
      (((queued (place readReq (.readDone .clean 0 0)) online).chan 0).queue = [place readReq (.readDone .clean 0 0)] ∧
        ∀ w ∈ ((queued (place readReq (.readDone .clean 0 0)) online).chan 0).owed, w.owner ≠ .demand 0) := by
  decide +kernel

/-- A merge read in flight at line 9. -/
def mergeFlying : State := flying (.merge 0) 9 (.line 9) (queued (place partReq (.mergeIssued plainProbe)) online)

/-- A merged write waiting for its issue. -/
def merged : State :=
  queued (place partReq (.mergeDecoded plainProbe ((Vector.replicate 8 .keep).set 0 .marker) .poisonKept)) online

/-- R80: a head whose read awaits its owed poison write keeps its place, and the refused request behind it waits. -/
theorem test_meets_ResponsesLeaveInOrder_waiting :
    (online.chan 0).queue = [] ∧
      ((queued (place readReq .waiting) online).chan 0).queue = [place readReq .waiting] ∧
      ((queued (place writeReq .waiting) online).chan 0).queue = [place writeReq .waiting] ∧ (0xFF : BitVec 64) ≠ 0 ∧
      ((queued (place readReq .readIssued) online).chan 0).queue = [place readReq .readIssued] ∧
      (mergeFlying.chan 0).queue = [place partReq (.mergeIssued plainProbe)] ∧
      (merged.chan 0).queue.length = 1 ∧
      (let s := queued (place { readReq with line := 512 } (.refused .address))
        (queued (place readReq (.readDone .poison 0 1)) (online.modChan 0 (fun c =>
          { c with owed := [{ line := 9, loc := .line 9, cws := 1, owner := .demand 0 }] })))
       (∃ w ∈ (s.chan 0).owed, w.owner = .demand 0) ∧
         ((after (.responseDeparture 0) s).chan 0).queue.length = 2 ∧
         ((after (.responseDeparture 0) s).chan 0).response = none) := by decide +kernel

theorem test_meets_ArbiterOrder :
    (((online.modChan 0 (fun c => { c with state := .initializing })).chan 0).state = .initializing ∧
        (online.chan 0).fillProgress < (online.chan 0).physLines) ∧
      (off.chan 0).state = .disabled ∧ (online.chan 0).state = .online ∧
      ((queued (place partReq (.mergeIssued plainProbe)) online).chan 0).head =
        some (place partReq (.mergeIssued plainProbe)) ∧
      ((queued (place partReq (.mergeDecoded plainProbe (Vector.replicate 8 .keep) .done)) online).chan 0).head =
        some (place partReq (.mergeDecoded plainProbe (Vector.replicate 8 .keep) .done)) ∧
      ((owing.chan 0).head = none ∧ (owing.chan 0).owed ≠ []) ∧
      ((writingBack.chan 0).owed = [] ∧ (writingBack.chan 0).demandCount = 8 ∧
        (writingBack.chan 0).wbNext.isSome = true ∧ writingBack.demandOp 0 = none) ∧
      (((queued (place readReq .waiting) online).chan 0).demandCount ≠ 8 ∧
        (queued (place readReq .waiting) online).demandOp 0 = some .demandRead) ∧
      ((copying.chan 0).wbNext = none ∧ (copying.chan 0).migrationOp = some .copyRead ∧ copying.demandOp 0 = none) ∧
      ((patrolling.chan 0).wbNext = none ∧ (patrolling.chan 0).migrationOp = none ∧
        (patrolling.chan 0).patrolReady = true) := by decide +kernel

theorem test_meets_ReadsAreIssued :
    ((queued (place readReq .waiting) zeroLine).nextOp 0 = some .demandRead ∧
        ((queued (place readReq .waiting) zeroLine).chan 0).head = some (place readReq .waiting) ∧
        ((queued (place readReq .waiting) zeroLine).chan 0).inDram
          ((queued (place readReq .waiting) zeroLine).probe 0 9).loc = true) ∧
      ((queued (place partReq .waiting) zeroLine).nextOp 0 = some .mergeRead ∧
        ((queued (place partReq .waiting) zeroLine).chan 0).head = some (place partReq .waiting)) ∧
      (copying.nextOp 0 = some .copyRead ∧ (copying.chan 0).migration.isSome = true ∧
        (copying.chan 0).inDram (.line 5) = true) ∧
      (verifying.nextOp 0 = some .verifyRead ∧ (verifying.chan 0).migration.isSome = true ∧
        (verifying.chan 0).inDram (.slot 0) = true) := by decide +kernel

/-- A demand read in flight at line 9. -/
def readFlying : State := flying (.demand 0) 9 (.line 9) (queued (place readReq .readIssued) online)

theorem test_meets_DemandReadDecodes :
    (readFlying.chan 0).flights.map (fun f => (f.kind, f.moved)) = [(.demand 0, false)] ∧
      (readFlying.chan 0).queue.find? (fun x => x.seq == 0) = some (place readReq .readIssued) ∧
      ((after (.spareRestore 0 0 4) (flying (.demand 0) 9 (.slot 4) defective)).chan 0).flights.map
        (fun f => (f.kind, f.moved)) = [(.demand 0, true)] ∧
      (readFlying.policy (readFlying.classOf 0 9)).demandWb = true ∧
      ((readFlying.setPolicy .standard { tHot := 1, tSpare := 1, autoSpare := true, demandWb := false }).policy
        .standard).demandWb = false := by decide +kernel

theorem test_meets_MergeReadDecodes :
    (mergeFlying.chan 0).flights.map (fun f => f.kind) = [.merge 0] ∧
      (mergeFlying.chan 0).queue.find? (fun x => x.seq == 0) = some (place partReq (.mergeIssued plainProbe)) ∧
      partReq.kind = .write (0#448 ++ 0xFFFFFFFFFFFFFFFF#64) 0x01 ∧
      maskOf (0x01 : BitVec 64) 0 ≠ 0xFF ∧ maskOf (0x01 : BitVec 64) 0 ≠ 0 ∧ maskOf (0x01 : BitVec 64) 7 = 0 ∧
      maskOf (0xFF : BitVec 64) 0 = 0xFF := by decide +kernel

theorem test_meets_DemandWritesReachDram :
    ((queued (place writeReq .waiting) online).nextOp 0 = some .demandWrite ∧
        ((queued (place writeReq .waiting) online).chan 0).head = some (place writeReq .waiting) ∧
        (online.chan 0).inDram (.line 9) = true ∧ ((queued (place writeReq .waiting) online).chan 0).patrol.held = []) ∧
      (merged.nextOp 0 = some .mergeWrite ∧ (merged.chan 0).head.isSome = true ∧
        merged.secondAt 0 9 plainProbe = none) := by decide +kernel

/-- A write to the line of a migration whose copy write has been issued: it goes to the source and to the target. -/
def twice : State := queued (place { writeReq with line := 5 } .waiting) verifying

theorem test_meets_DemandWritesReachDram_twice :
    twice.nextOp 0 = some .demandWrite ∧ twice.secondAt 0 5 (twice.probe 0 5) = some 0 ∧
      (twice.chan 0).inDram (.line 5) = true ∧ (twice.chan 0).inDram (.slot 0) = true ∧
      ((twice.probe 0 5).sparing = true ∧ (twice.chan 0).migration.map (fun m => m.line) = some 5 ∧
        ((twice.chan 0).migration.bind (fun m => m.held)).isSome = true) ∧
      ((sparing.chan 0).migration.map (fun m => m.held) = some none ∧ (sparing.probe 0 9).sparing = false) := by
  decide +kernel

/-- R24, R90, R116: a write of codeword 0 takes it out of the poison set and out of an owed poison write, and marks it on a
patrol read in flight at its line. -/
theorem test_demand_write_clears :
    let s := queued (place { writeReq with line := 0 } .waiting) ((withRec (reading .running (current .ordinary false) online)
      { recAt 0 .watch with poison := 3 }).modChan 0 (fun c =>
        { c with owed := [{ line := 0, loc := .line 0, cws := 3, owner := .patrol }] }))
    let t := s.issueWrite 0 0 (s.probe 0 0) (fullPlan (0#448 ++ 0xFFFFFFFFFFFFFFFF#64) 0xFF) 1
    t.table.map (fun r => r.poison) = [2] ∧ ((t.chan 0).owed.map (fun o => o.cws)) = [2] ∧
      (t.chan 0).patrol.current.map (fun r => r.marks) = some 1 := by decide +kernel

theorem test_meets_PoisonWriteBackAndFillWrites :
    (owing.nextOp 0 = some .poisonWrite ∧ (owing.chan 0).owed ≠ [] ∧ (owing.chan 0).inDram (.line 9) = true ∧
        owing.poisonSecond 0 { line := 9, loc := .line 9, cws := 2, owner := .patrol } = none) ∧
      (writingBack.nextOp 0 = some .writeBack ∧
        (writingBack.chan 0).wbNext = some { loc := .line 9, cw := 2, content := encode 7 } ∧
        (writingBack.chan 0).patrol.held = []) ∧
      (((online.modChan 0 (fun c => { c with state := .initializing, fillProgress := 1023 })).chan 0).fillProgress <
        (online.chan 0).physLines ∧ 512 ≤ (online.chan 0).physLines) := by decide +kernel

/-- A full Write-back Queue, with offers held. -/
def queueFull (held : List WbEntry) : State :=
  online.modChan 0 (fun c => { c with wbq := offersFor 4, demandCount := 8, patrol := { c.patrol with held := held } })

/-- The offer for codeword 0 of a line, with content of its own. -/
def offerAt (line : Nat) : WbEntry := { loc := .line line, cw := 0, content := encode 9 }

theorem test_meets_PoisonWriteBackAndFillWrites_reoffers :
    (let s := queueFull [offerAt 8, offerAt 9]
     s.nextOp 0 = some .writeBack ∧ (s.chan 0).wbNext = some { loc := .line 0, cw := 0, content := encode 0 } ∧
       ((s.chan 0).wbq.erase { loc := .line 0, cw := 0, content := encode 0 } ++ (s.chan 0).patrol.held).Pairwise
         (fun a b => a.same b = false) ∧
       ((s.chan 0).wbq.erase { loc := .line 0, cw := 0, content := encode 0 }).length ≤ 4) ∧
      (let s := queueFull [offerAt 2]
       (s.chan 0).wbNext = some { loc := .line 0, cw := 0, content := encode 0 } ∧
         ∃ x ∈ (s.chan 0).wbq.erase { loc := .line 0, cw := 0, content := encode 0 }, x.same (offerAt 2) = true) := by
  decide +kernel

/-- R114: the place that an issued entry leaves is taken by the first held offer; the second stays held. R92: an offer for
the place of an entry replaces it. -/
theorem test_write_back_offers_again :
    ((after (.writeBackIssue 0) (queueFull [offerAt 8, offerAt 9])).chan 0).wbq.map (fun e => e.loc) =
        [.line 1, .line 2, .line 3, .line 8] ∧
      ((after (.writeBackIssue 0) (queueFull [offerAt 8, offerAt 9])).chan 0).patrol.held = [offerAt 9] ∧
      ((after (.writeBackIssue 0) (queueFull [offerAt 2])).chan 0).wbq.map (fun e => e.content) =
        [encode 0, encode 9, encode 0] := by decide +kernel

/-- A full Write-back Queue with two held offers, and a write of line 0 next. -/
def writeAtEntry : State :=
  queued (place { writeReq with line := 0 } .waiting)
    ((queueFull [offerAt 8, offerAt 9]).modChan 0 (fun c => { c with demandCount := 0 }))

/-- The same with a poison write owed to codeword 0 of line 0. -/
def poisonAtEntry : State :=
  (queueFull [offerAt 8, offerAt 9]).modChan 0 (fun c =>
    { c with owed := [{ line := 0, loc := .line 0, cws := 1, owner := .patrol }] })

theorem test_meets_writes_that_drop_an_entry :
    (writeAtEntry.nextOp 0 = some .demandWrite ∧ (writeAtEntry.probe 0 0).loc = .line 0 ∧
        writeAtEntry.secondAt 0 0 (writeAtEntry.probe 0 0) = none ∧ (writeAtEntry.chan 0).inDram (.line 0) = true ∧
        (∃ e ∈ (writeAtEntry.chan 0).wbq, e.loc = .line 0 ∧
          CwSet.has (writtenSet (fullPlan (0#448 ++ 0xFFFFFFFFFFFFFFFF#64) 0xFF)) e.cw = true) ∧
        ((writeAtEntry.chan 0).wbq ++ (writeAtEntry.chan 0).patrol.held).Pairwise (fun a b => a.same b = false) ∧
        (writeAtEntry.chan 0).wbq.length ≤ 4) ∧
      (poisonAtEntry.nextOp 0 = some .poisonWrite ∧ (poisonAtEntry.chan 0).owed.length = 1 ∧
        poisonAtEntry.poisonSecond 0 { line := 0, loc := .line 0, cws := 1, owner := .patrol } = none ∧
        ∃ e ∈ (poisonAtEntry.chan 0).wbq, e.loc = .line 0 ∧ CwSet.has 1 e.cw = true) := by decide +kernel

/-- R93, R114: a write that drops the entry of its codeword lets the first held offer in. -/
theorem test_writes_offer_again :
    ((after (.demandWriteIssue 0) writeAtEntry).chan 0).wbq.map (fun e => e.loc) =
        [.line 1, .line 2, .line 3, .line 8] ∧
      ((after (.poisonWriteIssue 0) poisonAtEntry).chan 0).wbq.map (fun e => e.loc) =
        [.line 1, .line 2, .line 3, .line 8] ∧
      ((after (.poisonWriteIssue 0) poisonAtEntry).chan 0).patrol.held = [offerAt 9] := by decide +kernel

/-! ### Two locations, eligibility, and slots that change state -/

/-- R4: the ends of the two ranges of data positions, and the first check position. -/
theorem test_meets_EncodedDataReadsCleanAndMarkerPoison :
    column 55 = 0xE0 ∧ column 56 = 0x1F ∧ column 63 = 0x57 ∧ column 64 = 0x01 ∧ column 71 = 0x80 := by decide +kernel

/-- R182: the last bits of a response and the first beyond it; R190: a count of 15 with ALERT asserted. -/
theorem test_meets_LinkErrorsCountAndAnswer_sdo :
    (sdoBits { Response.powerOn with code := 0x81, result := .short } 194).length = 194 ∧
      (sdoBits { Response.powerOn with code := 0x81, result := .short } 18) =
        [true, false, false, false, false, false, false, true, false, false, false, false, true, true, false, true,
          false, false] ∧
      (sdoBits Response.powerOn 194)[191]? = some false ∧ (sdoBits Response.powerOn 194)[192]? = some true ∧
      (15 ≤ 15 ∧ summaryByte true 15 = 0x8F) := by decide +kernel

/-- A write of line 9 at the head, a demand read of line 9 in flight. -/
def heldBack : State := queued (place writeReq .waiting) readFlying

theorem test_meets_ArbiterOrder_eligible :
    ((heldBack.chan 0).head = some (place writeReq .waiting) ∧ (heldBack.chan 0).HoldsBack [.line 9] ∧
        heldBack.nextOp 0 = none) ∧
      ((queued (place partReq .waiting) online).chan 0).head = some (place partReq .waiting) ∧
      ¬ ((queued (place partReq .waiting) online).chan 0).HoldsBack [.line 9] ∧
      (queued (place partReq .waiting) online).demandOp 0 = some .mergeRead ∧
      (queued (place writeReq .waiting) online).demandOp 0 = some .demandWrite ∧
      (place readReq .readIssued).HasLeft ∧ (online.chan 0).head = none ∧ (online.chan 0).wbNext = none ∧
      ((online.chan 0).migration = none ∧ (online.chan 0).patrolReady = false ∧ online.nextOp 0 = none) ∧
      (let s := online.modChan 0 (fun c => { c with state := .initializing, fillProgress := 1024 })
       s.nextOp 0 = none) := by
  refine ⟨⟨by decide +kernel, (Channel.writeWaits_iff _ _).mp (by decide +kernel), by decide +kernel⟩, by decide +kernel,
    fun h => ?_, by decide +kernel, by decide +kernel, .inr (.inl rfl), by decide +kernel⟩
  exact absurd ((Channel.writeWaits_iff _ _).mpr h) (by decide +kernel)

/-- Line 5 SPARED at slot 3 and now SPARING to slot 0, its copy written and its verify read in flight. -/
def resparing : State :=
  { online with
    table := [{ recAt 5 .sparing with spareSlot := some 3, targetSlot := some 0, priorState := some .spared }] }.modChan 0
    (fun c => { c with
      slots := (c.slots.set 0 .allocated).set 3 .allocated
      migration := some
        { line := 5, target := 0, source := .slot 3, phase := .verifyRead, inFlight := true, copyWritten := true
          retry := 0, held := some heldUnread, expected := 0 }
      flights := [{ kind := .verify false, line := 5, loc := .slot 0, words := noUpsets, moved := false }] })

theorem resparing_sound : resparing.SparingSound := by
  refine ⟨?_, ?_, slotsNamed_of (by decide +kernel), ?_, agree_of (by decide +kernel)⟩
  · unfold State.TableSound Record.InRange; decide +kernel
  · have h : resparing.table =
      [{ recAt 5 .sparing with spareSlot := some 3, targetSlot := some 0, priorState := some .spared }] := rfl
    rw [h]
    simp only [List.forall_mem_singleton]
    exact ⟨rfl, rfl, by decide⟩
  · unfold State.SlotsUnique Record.names; decide +kernel

/-- R20's table: absent, WATCH, HOT, RETIRED, SPARED, and SPARING from a line and from a slot, before and after the copy
write. -/
theorem test_meets_ReadsAreIssued_probe :
    (online.rec? 0 5 = none ∧ (online.probe 0 5).loc = .line 5) ∧
      (∀ st ∈ [RecState.watch, .hot, .retired], ((withRec online (recAt 5 st)).rec? 0 5).map (fun r => r.state) = some st ∧
        ((withRec online (recAt 5 st)).probe 0 5).loc = .line 5) ∧
      ((spared.rec? 0 5).bind (fun r => r.spareSlot) = some 3 ∧ spared.probe 0 5 =
        { loc := .slot 3, sparing := false, second := none, retry := 0, count := 0 }) ∧
      ((sparing.rec? 0 5).map (fun r => (r.state, r.spareSlot)) = some (.sparing, none) ∧ sparing.probe 0 5 =
        { loc := .line 5, sparing := true, second := none, retry := 0, count := 0 }) ∧
      ((sparing.chan 0).migration.map (fun m => m.copyWritten) = some false) ∧
      (resparing.chan 0).migration.map (fun m => m.copyWritten) = some true ∧
      resparing.probe 0 5 = { loc := .slot 3, sparing := true, second := some 0, retry := 0, count := 0 } := by decide +kernel

/-- A merged write whose probe found the first attempt past its copy write, when the second attempt stands. -/
def retried : State :=
  withMigration (queued (place { partReq with line := 5 }
    (.mergeDecoded { loc := .line 5, sparing := true, second := some 0, retry := 0, count := 0 }
      ((Vector.replicate 8 .keep).set 0 .marker) .poisonKept)) verifying) (fun m => { m with retry := 1 })

theorem test_meets_DemandWritesReachDram_second :
    (retried.nextOp 0 = some .mergeWrite ∧ (retried.chan 0).migration.map (fun m => (m.line, m.retry)) = some (5, 1) ∧
        retried.secondAt 0 5 { loc := .line 5, sparing := true, second := some 0, retry := 0, count := 0 } = none) ∧
      ((twice.chan 0).migration.map (fun m => m.retry) = some (twice.probe 0 5).retry) ∧
      ((merged.chan 0).migration = none ∧
        merged.secondAt 0 9 { loc := .line 9, sparing := true, second := some 4, retry := 0, count := 0 } = some 4) := by
  decide +kernel

/-- A merge write whose merge read was issued at count 7, with two entries queued. -/
def mergedAtSeven : State :=
  (queued (place partReq (.mergeDecoded { plainProbe with count := 7 } ((Vector.replicate 8 .keep).set 0 .marker)
    .poisonKept)) online).modChan 0 (fun c => { c with wbq := offersFor 2, demandCount := 8 })

theorem test_meets_DemandWritesReachDram_atSeven :
    mergedAtSeven.nextOp 0 = some .mergeWrite ∧ (mergedAtSeven.chan 0).inDram (.line 9) = true ∧
      mergedAtSeven.secondAt 0 9 { plainProbe with count := 7 } = none ∧ plainProbe.count ≠ 7 := by decide +kernel

/-- R97: with two entries queued a demand write at count 3 takes it to 4; one that removes the last entry leaves 0. A merge
write adds 1 as well, but not when its merge read was issued at count 7. -/
theorem test_demand_count :
    (let s := queued (place writeReq .waiting) (online.modChan 0 (fun c => { c with wbq := offersFor 2, demandCount := 3 }))
     ((after (.demandWriteIssue 0) s).chan 0).demandCount = 4) ∧
      (let s := queued (place { writeReq with line := 0 } .waiting) (online.modChan 0 (fun c =>
        { c with wbq := offersFor 1, demandCount := 3 }))
       ((after (.demandWriteIssue 0) s).chan 0).demandCount = 0) ∧
      ((after (.mergeWriteIssue 0) (merged.modChan 0 (fun c => { c with wbq := offersFor 2, demandCount := 3 }))).chan
        0).demandCount = 4 ∧
      ((after (.mergeWriteIssue 0) mergedAtSeven).chan 0).demandCount = 8 ∧
      ((after (.mergeWriteIssue 0) (mergedAtSeven.modChan 0 (fun c => { c with demandCount := 0 }))).chan 0).demandCount =
        0 := by decide +kernel

/-- A poison write owed to the source of a migration whose copy write has been issued, with entries and held offers for its
codeword at both locations. -/
def poisonTwice : State :=
  verifying.modChan 0 (fun c => { c with
    owed := [{ line := 5, loc := .line 5, cws := 1, owner := .demand 0 }]
    wbq := [offerAt 5, { offerAt 5 with loc := .slot 0 }, offerAt 6]
    patrol := { c.patrol with held := [{ offerAt 5 with loc := .slot 0 }, offerAt 7] } })

theorem test_meets_PoisonWriteBackAndFillWrites_twice :
    poisonTwice.nextOp 0 = some .poisonWrite ∧
      poisonTwice.poisonSecond 0 { line := 5, loc := .line 5, cws := 1, owner := .demand 0 } = some 0 ∧
      (poisonTwice.chan 0).inDram (.line 5) = true ∧ (poisonTwice.chan 0).inDram (.slot 0) = true ∧
      (poisonTwice.rec? 0 5).map (fun r => r.state) = some .sparing ∧
      ((poisonTwice.chan 0).migration.map (fun m => (m.line, m.source)) = some (5, .line 5)) ∧
      ((poisonTwice.chan 0).migration.bind (fun m => m.held)).isSome = true ∧
      (owing.rec? 0 9 = none ∧ (owing.chan 0).migration = none) := by decide +kernel

/-- R84, R93, R115, R157: the marker at both locations, POISON in the held copy, the codeword in the poison set of the source's
record, and the entries and the held offer at both locations gone. -/
theorem test_poison_write_twice :
    let t := after (.poisonWriteIssue 0) poisonTwice
    (t.chan 0).cwAt 0 (.line 5) 0 = marker ∧ (t.chan 0).cwAt 0 (.slot 0) 0 = marker ∧
      t.table.map (fun r => r.poison) = [1] ∧ (t.chan 0).wbq.map (fun e => e.loc) = [.line 6, .line 7] ∧
      (t.chan 0).patrol.held = [] ∧
      ((t.chan 0).migration.bind (fun m => m.held)).map (fun h => (h.get 0).content) = some .poison := by decide +kernel

/-- A state with, at a slot and away from it, a read in flight, an entry and a held offer. -/
def around (i : SlotId) (s : State) : State :=
  (flying (.demand 7) 3 (.line 3) (flying (.demand 8) 5 (.slot i) s)).modChan 0 (fun c => { c with
    wbq := [{ loc := .slot i, cw := 0, content := encode 1 }, { loc := .line 1, cw := 0, content := encode 1 }]
    demandCount := 5
    patrol := { c.patrol with
      held := [{ loc := .slot i, cw := 1, content := encode 1 }, { loc := .line 2, cw := 0, content := encode 1 }] } })

/-- The marks of the reads in flight, the entries, the held offers and the count of channel 0. -/
def left (s : State) : List Bool × List Loc × List Loc × Nat :=
  ((s.chan 0).flights.map (fun f => f.moved), (s.chan 0).wbq.map (fun e => e.loc),
    (s.chan 0).patrol.held.map (fun e => e.loc), (s.chan 0).demandCount)

/-- R93, R114, R115, R142: a slot that becomes FREE by RETIRE, CANCEL, SPARE_RESTORE, SOFT_RESET or a change of PHYS_LINES. -/
theorem test_slot_becomes_free :
    left (after (.retire 0 0 5) (around 3 spared)) = ([true, false], [.line 1, .line 2], [], 5) ∧
      left (after (.cancel 0 0 5) (around 0 sparing)) = ([true, false], [.line 1, .line 2], [], 5) ∧
      left (after (.spareRestore 0 0 4) (around 4 defective)) = ([true, false], [.line 1, .line 2], [], 5) ∧
      left (after (.softReset 0) (around 0 sparing)) = ([true, false], [.line 2], [], 0) ∧
      left (after (.setPhysLines 0 0 2048) (around 4 (defective.modChan 0 (fun c => { c with state := .disabled })))) =
        ([true, false], [.line 2], [], 0) := by decide +kernel

/-- R142: a slot that becomes ALLOCATED marks the reads there and drops nothing. -/
theorem test_slot_becomes_allocated :
    left (after (.adopt 0 0 7 3 2) (around 2 online)) = ([true, false], [.slot 2, .line 1], [.slot 2, .line 2], 5) ∧
      left (after (.spare 0 0 5) (around 0 (withRec online (recAt 5 .watch)))) =
        ([true, false], [.slot 0, .line 1], [.slot 0, .line 2], 5) ∧
      left (candidates.select 0) = ([], [], [], 0) ∧
      left ((around 0 candidates).select 0) = ([true, false], [.slot 0, .line 1], [.slot 0, .line 2], 5) := by
  decide +kernel

/-- R142, R161, R162: a failed verify makes its target DEFECTIVE, and a passed one, at a re-sparing, the old spare slot. -/
theorem test_slot_becomes_defective :
    left (after (.verifyReadDecode 0 (upset0 3)) (around 0 (mixed 2))) = ([true, false], [.line 1, .line 2], [], 5) ∧
      left (after (.verifyReadDecode 0 noUpsets) (around 3 resparing)) = ([true, false], [.line 1, .line 2], [], 5) ∧
      left (after (.verifyReadDecode 0 noUpsets) (around 0 (mixed 0))) =
        ([false, false], [.slot 0, .line 1], [.slot 0, .line 2], 5) := by decide +kernel

theorem test_meets_Retire_and_Verify_at_a_resparing :
    resparing.LinkReady ∧ resparing.SparingSound ∧
      (resparing.rec? 0 (5 : BitVec 32).toNat).map (fun r => (r.state, r.spareSlot)) = some (.sparing, some 3) ∧
      ((resparing.chan 0).migration.map (fun m => (m.line, m.source)) = some (5, .slot 3)) ∧
      ((mixed 2).chan 0).migration.map (fun m => (m.line, m.source)) = some (6, .line 6) ∧
      (resparing.chan 0).flights.map (fun f => (f.kind, f.line)) = [(.verify false, 5)] :=
  ⟨⟨rfl, rfl⟩, resparing_sound, by decide +kernel⟩

/-- R44, R142: RETIRE of a re-sparing line frees its target and then its spare slot. -/
theorem test_retire_resparing :
    let t := after (.retire 0 0 5) (around 3 resparing)
    (t.chan 0).slots.get 0 = .free ∧ (t.chan 0).slots.get 3 = .free ∧
      (t.chan 0).flights.map (fun f => (f.kind, f.moved)) = [(.verify true, true), (.demand 8, true), (.demand 7, false)] ∧
      (t.chan 0).wbq.map (fun e => e.loc) = [.line 1, .line 2] := by decide +kernel

/-- R163: the reads of a migration that has ended, with and without a new one. -/
theorem test_meets_CopyReadAndCopyWrite_late :
    ((flying (.copy true) 5 (.line 5) online).chan 0).flights.map (fun f => f.kind) = [.copy true] ∧
      ((flying (.verify true) 5 (.slot 0) sparing).chan 0).flights.map (fun f => f.kind) = [.verify true] ∧
      ((flying (.verify true) 5 (.slot 0) sparing).chan 0).migration.isSome = true ∧
      ((flying (.copy true) 5 (.line 5) online).chan 0).migration = none := by decide +kernel

/-- R163: a late copy read delivers and is captured, and owes no poison write. -/
theorem test_late_copy_read :
    let t := after (.copyReadDecode 0 (upset0 3)) (flying (.copy true) 5 (.line 5) online)
    t.table.map (fun r => (r.key.line, r.score, r.origin)) = [(5, 1023, .migration)] ∧ (t.chan 0).ueCount = 1 ∧
      (t.chan 0).owed = [] ∧ (t.chan 0).flights = [] := by decide +kernel

theorem test_meets_CopyReadAndCopyWrite :
    (((copyFlying.chan 0).migration.bind (fun m => m.held)).isSome = true ∧
        (copyFlying.chan 0).flights.map (fun f => (f.kind, f.moved)) = [(.copy false, false)]) ∧
      (copyHeld.nextOp 0 = some .copyWrite ∧ ((copyHeld.chan 0).migration.bind (fun m => m.held)).isSome = true ∧
        (copyHeld.chan 0).inDram (.slot 0) = true) ∧
      ((copyFlying.modChan 0 (fun c => { c with flights := c.flights.map (fun f => { f with moved := true }) })).chan
        0).flights.map (fun f => f.moved) = [true] := by decide +kernel

theorem test_meets_VerifyCommitsRetriesOrFails :
    ((mixed 0).SparingSound ∧ ((mixed 0).chan 0).migration.map (fun m => (m.line, m.retry, m.expected)) = some (6, 0, 0) ∧
        ((mixed 0).chan 0).flights.map (fun f => (f.kind, f.line, f.words)) = [(.verify false, 6, noUpsets)]) ∧
      (∀ i : CwIndex, ((reportsOf noUpsets noUpsets).get i).verdict = if CwSet.has 0 i then .poison else .clean) ∧
      (∃ i : CwIndex, ((reportsOf noUpsets (upset0 8)).get i).verdict ≠ if CwSet.has 0 i then .poison else .clean) ∧
      (((mixed 0).chan 0).slots.get 1 = .free ∧ ∀ j : SlotId, j < 1 → ((mixed 0).chan 0).slots.get j ≠ .free) ∧
      ((mixed 2).SparingSound ∧ ((mixed 2).chan 0).migration.map (fun m => m.retry) = some 2) := by
  refine ⟨⟨mixed_sound 0 (.inl rfl), by decide +kernel⟩, by decide +kernel, by decide +kernel, by decide +kernel,
    mixed_sound 2 (.inr rfl), by decide +kernel⟩

/-- A focus read due, with line 7 HOT. -/
def focusing : State :=
  (withRec patrolling (recAt 7 .hot)).modChan 0 (fun c => c.modPatrol (fun p => { p with focusCount := 8 }))

/-- The ready line 0 RETIRED, line 1 not. -/
def skipping : State := withRec patrolling (recAt 0 .retired)

/-- The last visible line ready, and RETIRED. -/
def skippingLast : State :=
  (withRec patrolling (recAt 511 .retired)).modChan 0 (fun c => c.modPatrol (fun p => { p with position := 511 }))

theorem test_meets_PatrolIssueSteps :
    (focusing.nextOp 0 = some .patrolStep ∧ focusing.settings.focusInterval ≠ 0 ∧
        focusing.settings.focusInterval ≤ (focusing.chan 0).patrol.focusCount ∧
        focusPick (focusing.chan 0).patrol.focusCursor (focusing.focusLines 0) = some 7 ∧
        (focusing.chan 0).inDram (.line 7) = true) ∧
      (patrolling.nextOp 0 = some .patrolStep ∧
        (patrolling.chan 0).patrol.focusCount < patrolling.settings.focusInterval ∧
        0 = (patrolling.chan 0).patrol.position ∧ lineSkipped patrolling.table 0 0 = false ∧
        (patrolling.chan 0).inDram (.line 0) = true) ∧
      (skipping.nextOp 0 = some .patrolStep ∧ (skipping.chan 0).patrol.position < 1 ∧ 1 < (skipping.chan 0).visible ∧
        skipping.classOf 0 1 ≠ .unscrubbed ∧ lineSkipped skipping.table 0 0 = true ∧
        lineSkipped skipping.table 0 1 = false) ∧
      (skippingLast.nextOp 0 = some .patrolStep ∧
        lineSkipped skippingLast.table 0 (skippingLast.chan 0).patrol.position = true ∧
        (skippingLast.chan 0).visible ≤ (skippingLast.chan 0).patrol.position + 1) ∧
      (let due := (patrolling.modChan 0 (fun c => c.modPatrol (fun p => { p with focusCount := 64 })))
       due.nextOp 0 = some .patrolStep ∧ focusPick (due.chan 0).patrol.focusCursor (due.focusLines 0) = none) := by
  decide +kernel

/-- R119: with HOT lines 7 and 9, the cursor at 7 gives 9, and at 9 gives 7 again. -/
theorem test_meets_PatrolIssueSteps_focus :
    let two := withRec focusing (recAt 9 .hot)
    (∀ l ∈ [7, 9], ∃ r ∈ two.table, r.key = { channel := 0, line := l } ∧ r.state = .hot ∧
        two.classOf 0 l ≠ .unscrubbed) ∧
      focusPick none (two.focusLines 0) = some 7 ∧ focusPick (some 7) (two.focusLines 0) = some 9 ∧
      focusPick (some 9) (two.focusLines 0) = some 7 := by decide +kernel

/-- A patrol read in flight. -/
def patrolFlying : State := flying .patrol 0 (.line 0) (reading .running (current .ordinary false) online)

theorem test_meets_PatrolReadDecodes :
    (patrolFlying.chan 0).flights.map (fun f => (f.kind, f.moved)) = [(.patrol, false)] ∧
      (patrolFlying.chan 0).patrol.current = some (current .ordinary false) ∧
      (patrolFlying.chan 0).patrol.held = [] := by decide +kernel

theorem test_meets_PatrolReadsFinish :
    (let s := reading .running (current .focus true) online
     (s.chan 0).patrol.current = some (current .focus true) ∧ (s.chan 0).patrol.held = [] ∧
       ∀ o ∈ (s.chan 0).owed, o.owner ≠ .patrol) ∧
      (let s := reading .running (current .ordinary true) online
       (s.chan 0).patrol.state = .running ∧ (s.chan 0).patrol.position < 1 ∧ 1 < (s.chan 0).visible ∧
         s.classOf 0 1 ≠ .unscrubbed) ∧
      (let s := (reading .running (current .ordinary true) online).modChan 0 (fun c =>
        c.modPatrol (fun p => { p with position := 511 }))
       (s.chan 0).patrol.state = .running ∧ (s.chan 0).visible ≤ (s.chan 0).patrol.position + 1) ∧
      (let s := reading .halting { current .ordinary true with acrossReset := true } online
       (s.chan 0).patrol.state = .halting ∧ (s.chan 0).patrol.current.map (fun r => r.acrossReset) = some true) ∧
      (let s := reading .halting (current .ordinary true) online
       (s.chan 0).patrol.state = .halting ∧ (s.chan 0).patrol.position + 1 < (s.chan 0).visible) ∧
      (let s := (reading .halting (current .ordinary true) online).modChan 0 (fun c =>
        c.modPatrol (fun p => { p with position := 511 }))
       (s.chan 0).patrol.state = .halting ∧ (s.chan 0).visible ≤ (s.chan 0).patrol.position + 1) := by decide +kernel

theorem test_meets_PassEndDecaysRecords :
    (mixed 0).TableSound ∧ (online.chan 0).patrol.mode = .continuous ∧
      ((after (.patrolStart 0 0 0 0 0) online).chan 0).patrol.mode = .single ∧
      (∃ r ∈ (mixed 0).table, r.state = .sparing) ∧ (∃ r ∈ (mixed 0).table, r.key.channel ≠ 1) ∧
      (∃ r ∈ (mixed 0).table, r.key.channel = 0 ∧ r.state = .watch ∧ r.score = 0 ∧ r.pinned = false ∧ r.poison = 0) ∧
      (∃ r ∈ (mixed 0).table, r.key.channel = 0 ∧ r.state = .spared) :=
  ⟨mixed_tableSound, by decide +kernel⟩

/-- Channel 0's Patrol Engine in a state and a mode. -/
def engine (st : PatrolState) (mode : PatrolMode) : State :=
  online.modChan 0 (fun c => c.modPatrol (fun p => { p with state := st, mode := mode }))

/-- R108's table: DONE after a SINGLE pass, RUNNING with the pass-start wait or IDLE after a CONTINUOUS one. -/
theorem test_pass_end_states :
    ([(.running, .single), (.running, .continuous), (.halting, .single), (.halting, .continuous)].map (fun x =>
      let p := (((engine x.1 x.2).endPass 0).chan 0).patrol
      (p.state, p.startWait))) = [(.done, false), (.running, true), (.done, false), (.idle, false)] := by
  decide +kernel

theorem test_meets_CadenceEvents :
    (online.cadence.slotIndex = some 0 ∧ online.cadence.slotEnd = some 100 ∧ online.cadence.watchdogRef = none ∧
        0 + 1 < online.cadence.frameSlots ∧ online.cadence.activeSource = .internal) ∧
      (let s : State := { online with cadence := { online.cadence with slotIndex := some 7 } }
       s.cadence.frameSlots ≤ 7 + 1 ∧ s.cadence.activeSource = .internal) ∧
      (let s : State := { external with cadence := { external.cadence with slotIndex := some 7 } }
       s.cadence.frameSlots ≤ 7 + 1 ∧ s.cadence.activeSource = .external ∧ s.cadence.watchdogRef = some 0 ∧
         s.cadence.slotEnd = some 100 ∧ 100 ≤ 0 + s.settings.cadenceTimeout) ∧
      (online.resetAsserted = false ∧ online.settings.cadenceSource = .internal) ∧
      (external.resetAsserted = false ∧ external.cadence.activeSource = .external) ∧
      (lastBeat.cadence.watchdogRef = some 0 ∧ lastBeat.cadence.slotEnd = none) := by decide +kernel

theorem test_meets_SlotStartSetsBudgets :
    (let s := online.modChan 0 (fun c => c.modPatrol (fun p => { p with startWait := true, state := .running }))
     (s.chan 0).patrol.startWait = true ∧ 1 ≤ s.budgetOf 0 s.cadence.activePhase 31 ∧ 0 < (s.chan 0).visible ∧
       s.classOf 0 0 ≠ .unscrubbed) ∧
      ({ online with cadence := { online.cadence with activePhase := .auction } } : State).budgetOf 0 .auction 0 = 0 := by
  decide +kernel

theorem test_meets_ResetRestoresPowerOn :
    online.resetAsserted = false ∧ (after .resetAssert online).resetAsserted = true := by decide +kernel

theorem reset_agree : State.reset.MigrationsAgree := agree_of (by decide +kernel)

theorem test_meets_StepsKeepSparePoolAndRecordsAgreeing :
    (mixed 0).SparingSound ∧ exec .slotEnd (mixed 0) = .next (after .slotEnd (mixed 0)) :=
  ⟨mixed_sound 0 (.inl rfl), exec_after (by decide +kernel)⟩

theorem test_meets_StepsKeepTableSound : (mixed 0).TableSound ∧ IsNext (step (mixed 0)) :=
  ⟨mixed_tableSound, _, rfl⟩

theorem test_meets_StepsKeepDemandPathSound :
    zeroLine.CreditsSound ∧ zeroLine.WbqsSound ∧ zeroLine.DramSound ∧ IsNext (step zeroLine) := by
  refine ⟨?_, ?_, ?_, _, rfl⟩
  · unfold State.CreditsSound; decide +kernel
  · unfold State.WbqsSound Channel.WbqSound; decide +kernel
  · unfold State.DramSound; decide +kernel

theorem test_meets_StepsKeepPatrolsSound : State.reset.PatrolsSound ∧ IsNext (step State.reset) := by
  refine ⟨?_, _, rfl⟩
  intro ch
  fin_cases ch <;> exact ⟨by decide +kernel, by decide +kernel, by decide +kernel, by decide +kernel, by decide +kernel,
    by decide +kernel, by decide +kernel, fun f hf => absurd hf (by simp [State.reset, State.powerOn, State.chan,
      Vector.get, Channel.powerOn])⟩

theorem test_meets_StepsKeepCadenceAndNumbersSound :
    external.PhaseSound ∧ external.cadence.slotIndex = some 0 ∧ external.settings.InRange ∧ IsNext (step external) := by
  refine ⟨?_, by decide +kernel, ?_, _, rfl⟩
  · unfold State.PhaseSound; decide +kernel
  · unfold Settings.InRange; decide +kernel

end Sys2Proof.Tests
end

section
/-! SUPPORT. The correcting code: the syndrome is linear, an encoding has syndrome 0, and a position's own bit has the
position's column as syndrome; so the syndrome of an encoding with bits inverted is the XOR of their columns (R4 to R11).
-/

namespace Sys2Proof.Machine

/-! ### The syndrome is linear (R5, R6) -/

@[simp] theorem Codeword.data_append (c : Byte) (d : Data) : Codeword.data (c ++ d) = d :=
  BitVec.extractLsb'_append_eq_right

@[simp] theorem Codeword.check_append (c : Byte) (d : Data) : Codeword.check (c ++ d) = c :=
  BitVec.extractLsb'_append_eq_left

@[simp] theorem encode_data (d : Data) : Codeword.data (encode d) = d := Codeword.data_append _ d

theorem xorColumns_xor (d e : Data) (n : Nat) (cols : List Byte) :
    xorColumns (d ^^^ e) n cols = xorColumns d n cols ^^^ xorColumns e n cols := by
  induction cols generalizing n with
  | nil => simp [xorColumns]
  | cons c cs ih =>
    have bit : (if (d ^^^ e).getLsbD n then c else 0) =
        (if d.getLsbD n then c else 0) ^^^ (if e.getLsbD n then c else 0) := by
      rw [BitVec.getLsbD_xor]
      cases d.getLsbD n <;> cases e.getLsbD n <;> simp
    simp only [xorColumns, ih, bit]
    ac_rfl

theorem syndrome_xor (v w : Codeword) : syndrome (v ^^^ w) = syndrome v ^^^ syndrome w := by
  have hdata : Codeword.data (v ^^^ w) = Codeword.data v ^^^ Codeword.data w := BitVec.extractLsb'_xor
  have hcheck : Codeword.check (v ^^^ w) = Codeword.check v ^^^ Codeword.check w := BitVec.extractLsb'_xor
  unfold syndrome checkOf
  rw [hdata, hcheck, xorColumns_xor]
  ac_rfl

@[simp] theorem syndrome_encode (d : Data) : syndrome (encode d) = 0 := by
  simp [syndrome, encode]

theorem syndrome_bit : ∀ p : BitPos, syndrome (1#72 <<< p.val) = column p := by decide +kernel

/-- Inverting a bit adds the position's column to the syndrome. -/
@[simp] theorem syndrome_flipBit (w : Codeword) (p : BitPos) : syndrome (flipBit w p) = syndrome w ^^^ column p := by
  rw [flipBit, syndrome_xor, syndrome_bit]

@[simp] theorem flipBit_flipBit (w : Codeword) (p : BitPos) : flipBit (flipBit w p) p = w := by
  simp [flipBit]

/-! ### The columns of the positions (R4) -/

/-- The bytes with k bits at 1, ascending. -/
def bytesOfWeight (k : Nat) : List Nat :=
  (List.range 256).filter (fun n => (List.range 8).countP (fun b => n.testBit b) == k)

theorem bytesOfWeight_three : bytesOfWeight 3 = (columns.take 56).map BitVec.toNat := by decide +kernel

theorem bytesOfWeight_five : (bytesOfWeight 5).take 8 = ((columns.drop 56).take 8).map BitVec.toNat := by decide +kernel

theorem columns_getElem? (p : BitPos) : columns[p.val]? = some (column p) := by
  have h : p.val < columns.length := p.isLt
  rw [column, List.getD_eq_getElem?_getD, List.getElem?_eq_getElem h, Option.getD_some]

theorem column_of_lt {p : BitPos} (h : p.val < 56) : (bytesOfWeight 3)[p.val]? = some (column p).toNat := by
  rw [bytesOfWeight_three, List.getElem?_map, List.getElem?_take_of_lt h, columns_getElem?, Option.map_some]

theorem column_of_le_of_lt {p : BitPos} (h : 56 ≤ p.val) (k : p.val < 64) :
    (bytesOfWeight 5)[p.val - 56]? = some (column p).toNat := by
  have hlt : p.val - 56 < 8 := by omega
  rw [← List.getElem?_take_of_lt hlt, bytesOfWeight_five, List.getElem?_map, List.getElem?_take_of_lt hlt,
    List.getElem?_drop, Nat.add_sub_cancel' h, columns_getElem?, Option.map_some]

theorem column_of_check : ∀ p : BitPos, 64 ≤ p.val → (column p).toNat = 2 ^ (p.val - 64) := by decide +kernel

/-! ### The syndrome as the XOR of the columns whose bit is 1 (R6) -/

/-- XORs into a byte the columns, each paired with its bit, whose bit of a word is 1. -/
def xorPaired {n : Nat} (w : BitVec n) (x : Byte) (cols : List (Byte × Nat)) : Byte :=
  cols.foldl (fun x c => if w.getLsbD c.2 then x ^^^ c.1 else x) x

theorem xorPaired_eq_xor {n : Nat} (w : BitVec n) (x : Byte) (cols : List (Byte × Nat)) :
    xorPaired w x cols = x ^^^ xorPaired w 0 cols := by
  induction cols generalizing x with
  | nil => simp [xorPaired]
  | cons c cs ih =>
    show xorPaired w (if w.getLsbD c.2 then x ^^^ c.1 else x) cs =
      x ^^^ xorPaired w (if w.getLsbD c.2 then 0 ^^^ c.1 else 0) cs
    by_cases h : w.getLsbD c.2 = true
    · rw [if_pos h, if_pos h, ih (x ^^^ c.1), ih (0 ^^^ c.1)]
      simp [BitVec.xor_assoc]
    · rw [if_neg h, if_neg h, ih]

theorem xorPaired_zipIdx {k : Nat} (w : BitVec k) (d : Data) (n : Nat) (cols : List Byte)
    (h : ∀ i, n ≤ i → i < n + cols.length → w.getLsbD i = d.getLsbD i) :
    xorPaired w 0 (cols.zipIdx n) = xorColumns d n cols := by
  induction cols generalizing n with
  | nil => rfl
  | cons c cs ih =>
    have hbit := h n le_rfl (by simp)
    have hrest := ih (n + 1) (fun i hi hl => h i (by omega) (by simp only [List.length_cons]; omega))
    show xorPaired w (if w.getLsbD n then 0 ^^^ c else 0) (cs.zipIdx (n + 1)) = _
    rw [xorPaired_eq_xor, hrest, hbit, xorColumns]
    simp

theorem xorPaired_check : ∀ b : Byte, xorPaired b 0 (columnsCheck.zipIdx 0) = b := by decide +kernel

theorem columns_zipIdx :
    (List.finRange 72).map (fun p => (column p, p.val)) =
      (columnsLow ++ columnsHigh).zipIdx 0 ++ columnsCheck.zipIdx 64 := by decide +kernel

theorem syndrome_eq_foldl (w : Codeword) :
    syndrome w = (List.finRange 72).foldl (fun x p => if w.getLsbD p.val then x ^^^ column p else x) 0 := by
  have hdata : xorPaired w 0 ((columnsLow ++ columnsHigh).zipIdx 0) = checkOf (Codeword.data w) :=
    xorPaired_zipIdx w _ 0 _ (fun i _ hi => by
      have : i < 64 := by simpa [columnsLow, columnsHigh] using hi
      simp [Codeword.data, this])
  have hcheck : xorPaired w 0 (columnsCheck.zipIdx 64) = Codeword.check w := by
    rw [← xorPaired_check (Codeword.check w)]
    simp [xorPaired, columnsCheck, Codeword.check]
  calc syndrome w
      = xorPaired w (xorPaired w 0 ((columnsLow ++ columnsHigh).zipIdx 0)) (columnsCheck.zipIdx 64) := by
        rw [xorPaired_eq_xor, hdata, hcheck, syndrome]
    _ = xorPaired w 0 ((List.finRange 72).map (fun p => (column p, p.val))) := by
        rw [columns_zipIdx]
        exact List.foldl_append.symm
    _ = _ := List.foldl_map

/-! ### Verdicts and reports (R7, R8, R9) -/

@[simp] theorem verdictOf_zero : verdictOf 0 = .clean := rfl

theorem verdictOf_column : ∀ p : BitPos, verdictOf (column p) = .corrected p := by decide +kernel

/-- A syndrome that is not zero and no column is POISON or UNCORRECTABLE. -/
theorem verdictOf_of_no_column {x : Byte} (h0 : x ≠ 0) (h : ∀ k : BitPos, x ≠ column k) :
    verdictOf x = if x = 0x3C then .poison else .uncorrectable := by
  have hpos : positionOf x = none := by
    unfold positionOf
    rw [List.find?_eq_none]
    exact fun k _ => by simpa using (h k).symm
  rw [verdictOf, if_neg h0, hpos]
  rfl

theorem report_syndrome (w : Codeword) : (report w).syndrome = syndrome w := by
  unfold report
  dsimp only
  split <;> rfl

theorem report_verdict (w : Codeword) : (report w).verdict = verdictOf (syndrome w) := by
  unfold report
  dsimp only
  split
  · next h => exact h.symm
  · rfl

theorem report_of_corrected {w : Codeword} {p : BitPos} (h : verdictOf (syndrome w) = .corrected p) :
    report w = { verdict := .corrected p, syndrome := syndrome w, data := Codeword.data (flipBit w p)
                 fixed := some (flipBit w p) } := by
  simp only [report, h]

theorem report_encode (d : Data) :
    report (encode d) = { verdict := .clean, syndrome := 0, data := d, fixed := none } := by
  simp only [report, syndrome_encode, verdictOf_zero, encode_data]

theorem report_marker : report marker = { verdict := .poison, syndrome := 0x3C, data := 0, fixed := none } := by
  decide +kernel

/-- No encoding is the marker: it has syndrome 0x3C. -/
theorem encode_ne_marker (d : Data) : encode d ≠ marker := by
  intro h
  have hs := report_encode d
  rw [h, report_marker] at hs
  cases hs

theorem reportsOf_get (words upsets : LineWords) (i : CwIndex) :
    (reportsOf words upsets).get i = report (words.get i ^^^ upsets.get i) := Vector.get_ofFn _ i

/-- Settles O3: the columns by the lists of bytes of weight 3 and 5, the syndrome by its linearity. -/
theorem encodedDataReadsCleanAndMarkerPoison : Obligations.EncodedDataReadsCleanAndMarkerPoison := by
  refine ⟨fun p ones hones => ?_, syndrome_eq_foldl, reportsOf_get, report_encode, report_marker, encode_ne_marker⟩
  have hw : ∀ k, ones k = bytesOfWeight k := hones
  rw [hw, hw]
  exact ⟨column_of_lt, column_of_le_of_lt, column_of_check p⟩

/-! ### One and two inverted bits (R11) -/

theorem report_flipBit_encode (d : Data) (p : BitPos) : report (flipBit (encode d) p) =
    { verdict := .corrected p, syndrome := column p, data := d, fixed := some (encode d) } := by
  have hs : syndrome (flipBit (encode d) p) = column p := by simp
  rw [report_of_corrected (p := p) (by rw [hs, verdictOf_column]), hs, flipBit_flipBit, encode_data]

/-- Each position has a column of its own, since the verdict on the column names it. -/
theorem column_injective : Function.Injective column := by
  intro p q h
  have hv : Verdict.corrected p = Verdict.corrected q := by rw [← verdictOf_column, h, verdictOf_column]
  exact Verdict.corrected.inj hv

/-- Whether a byte has an odd number of bits at 1. -/
def oddWeight (b : Byte) : Bool := (List.finRange 8).foldl (fun x j => x ^^ b.getLsbD j.val) false

theorem oddWeight_xor (a b : Byte) : oddWeight (a ^^^ b) = (oddWeight a ^^ oddWeight b) := by
  have key : ∀ (l : List (Fin 8)) (x y : Bool),
      l.foldl (fun z j => z ^^ (a ^^^ b).getLsbD j.val) (x ^^ y) =
        (l.foldl (fun z j => z ^^ a.getLsbD j.val) x ^^ l.foldl (fun z j => z ^^ b.getLsbD j.val) y) := by
    intro l
    induction l with
    | nil => exact fun _ _ => rfl
    | cons j js ih =>
      intro x y
      have hbit : ((x ^^ y) ^^ (a ^^^ b).getLsbD j.val) = ((x ^^ a.getLsbD j.val) ^^ (y ^^ b.getLsbD j.val)) := by
        rw [BitVec.getLsbD_xor, Bool.xor_assoc, Bool.xor_left_comm y, ← Bool.xor_assoc]
      rw [List.foldl_cons, hbit, ih, List.foldl_cons, List.foldl_cons]
  exact key _ false false

theorem oddWeight_column : ∀ p : BitPos, oddWeight (column p) = true := by decide +kernel

/-- Every column has odd weight, so the XOR of two is no column. -/
theorem column_xor_column_ne_column (p q k : BitPos) : column p ^^^ column q ≠ column k := by
  intro h
  have hodd := oddWeight_xor (column p) (column q)
  rw [h, oddWeight_column, oddWeight_column, oddWeight_column] at hodd
  cases hodd

theorem column_xor_column_ne_zero {p q : BitPos} (h : p ≠ q) : column p ^^^ column q ≠ 0 :=
  fun hx => h (column_injective (BitVec.xor_eq_zero_iff.mp hx))

theorem column_xor_column_eq_poison_iff :
    ∀ p q : BitPos, column p ^^^ column q = 0x3C ↔ pairedPositions p q = true := by decide +kernel

theorem syndrome_flipBit_flipBit_encode (d : Data) (p q : BitPos) :
    syndrome (flipBit (flipBit (encode d) p) q) = column p ^^^ column q := by simp

theorem verdictOf_column_xor_column {p q : BitPos} (h : p ≠ q) :
    verdictOf (column p ^^^ column q) = if pairedPositions p q then .poison else .uncorrectable := by
  rw [verdictOf_of_no_column (column_xor_column_ne_zero h) (column_xor_column_ne_column p q)]
  exact if_congr (column_xor_column_eq_poison_iff p q) rfl rfl

theorem markerPairs_disjoint : (markerPairs.flatMap (fun x => [x.1, x.2])).Nodup := by decide +kernel

theorem position_pairs_length : ((List.finRange 72).flatMap (fun p =>
    ((List.finRange 72).filter (fun q => decide (p < q))).map (fun q => (p, q)))).length = 2556 := by decide +kernel

/-- Settles O4: one inverted bit leaves its column as syndrome; two leave the XOR of two columns, whose weight is even.
-/
theorem singleAndDoubleBitErrors : Obligations.SingleAndDoubleBitErrors := by
  refine ⟨report_flipBit_encode, fun d p q hpq => ?_, rfl, markerPairs_disjoint, position_pairs_length⟩
  rw [report_syndrome, report_verdict, syndrome_flipBit_flipBit_encode]
  exact ⟨rfl, column_xor_column_ne_zero hpq, column_xor_column_ne_column p q, column_xor_column_eq_poison_iff p q,
    verdictOf_column_xor_column hpq⟩

end Sys2Proof.Machine
end

section
/-! SUPPORT. The bytes that a merge takes, what every decode with a delivery leaves, and the decode of a merge read. -/

namespace Sys2Proof.Machine

/-! ### Bytes of data and of masks (R3, R78, R88) -/

theorem getLsbD_foldl_or {α : Type} {n : Nat} (g : α → BitVec n) (k : Nat) (l : List α) (acc : BitVec n) :
    (l.foldl (fun a j => a ||| g j) acc).getLsbD k = (acc.getLsbD k || l.any (fun j => (g j).getLsbD k)) := by
  induction l generalizing acc with
  | nil => simp
  | cons j js ih => rw [List.foldl_cons, ih, BitVec.getLsbD_or, List.any_cons, Bool.or_assoc]

/-- Byte j of 64 bits, as the set of its bits. -/
theorem getLsbD_byteBits (j : Fin 8) {k : Nat} (hk : k < 64) :
    (0xFF#64 <<< (8 * j.val)).getLsbD k = decide (j.val = k / 8) := by
  have hff : ∀ m : Nat, (0xFF#64).getLsbD m = decide (m < 8) := fun m => by
    have hw : 0xFF#64 = (BitVec.allOnes 8).setWidth 64 := rfl
    rw [hw, BitVec.getLsbD_setWidth, BitVec.getLsbD_allOnes]
    by_cases hm : m < 8
    · simp [hm, show m < 64 by omega]
    · simp [hm]
  rw [BitVec.getLsbD_shiftLeft, hff, Bool.eq_iff_iff]
  simp only [Bool.and_eq_true, Bool.not_eq_true', decide_eq_true_eq, decide_eq_false_iff_not]
  omega

/-- Each bit of a merge is the new one where its byte's mask bit is set, and the old one elsewhere. -/
theorem mergeBytes_getLsbD (mask : Byte) (old new : Data) {k : Nat} (hk : k < 64) :
    (mergeBytes mask old new).getLsbD k = if mask.getLsbD (k / 8) then new.getLsbD k else old.getLsbD k := by
  have hpart : ∀ j : Fin 8,
      ((if mask.getLsbD j.val then new else old) &&& (0xFF#64 <<< (8 * j.val))).getLsbD k =
        (decide (j.val = k / 8) && if mask.getLsbD (k / 8) then new.getLsbD k else old.getLsbD k) := fun j => by
    rw [BitVec.getLsbD_and, getLsbD_byteBits j hk, Bool.and_comm]
    by_cases hj : j.val = k / 8
    · rw [hj]; split <;> rfl
    · simp [hj]
  have hany : ∀ b : Bool, (List.finRange 8).any (fun j => decide (j.val = k / 8) && b) = b := fun b => by
    rw [Bool.eq_iff_iff]
    simp only [List.any_eq_true, List.mem_finRange, true_and, Bool.and_eq_true, decide_eq_true_eq]
    exact ⟨fun ⟨_, _, hb⟩ => hb, fun hb => ⟨⟨k / 8, by omega⟩, rfl, hb⟩⟩
  rw [mergeBytes, getLsbD_foldl_or]
  simp only [hpart, hany]
  simp

theorem mergeBytes_byte (mask : Byte) (old new : Data) (j : Fin 8) :
    (mergeBytes mask old new).extractLsb' (8 * j.val) 8 =
      if mask.getLsbD j.val then new.extractLsb' (8 * j.val) 8 else old.extractLsb' (8 * j.val) 8 := by
  apply BitVec.eq_of_getLsbD_eq
  intro i hi
  have hbyte : (8 * j.val + i) / 8 = j.val := by omega
  rw [BitVec.getLsbD_extractLsb', mergeBytes_getLsbD _ _ _ (by omega), hbyte]
  split <;> rw [BitVec.getLsbD_extractLsb']

theorem maskOf_getLsbD (mask : BitVec 64) (i : CwIndex) (j : Fin 8) :
    (maskOf mask i).getLsbD j.val = mask.getLsbD (8 * i.val + j.val) := by
  simp [maskOf]

theorem codeword_byte (data : LineData) (i : CwIndex) (j : Fin 8) :
    (LineData.codeword data i).extractLsb' (8 * j.val) 8 = data.extractLsb' (8 * (8 * i.val + j.val)) 8 := by
  apply BitVec.eq_of_getLsbD_eq
  intro k hk
  have hpos : 64 * i.val + (8 * j.val + k) = 8 * (8 * i.val + j.val) + k := by omega
  have hin : 8 * j.val + k < 64 := by omega
  simp [LineData.codeword, hk, hin, hpos]

/-! ### Reads whose codewords are all CLEAN (R22, R168) -/

theorem State.captureRead_clean {reps : Vector Report 8} (h : ∀ i : CwIndex, (reps.get i).verdict = .clean)
    (s : State) (ch : ChanId) (src : ReadSource) (n : Nat) (loc : Loc) (tag : Option Byte) :
    s.captureRead ch src n loc tag reps = s := by
  have hnone : captureEvents src n loc tag (s.classOf ch n) reps = [] := by
    unfold captureEvents
    rw [List.filterMap_eq_nil_iff]
    intro i _
    rw [captureEvent_cases, h i]
    rfl
  rw [State.captureRead_eq, hnone, List.foldl_nil]

theorem State.deliver_clean {reps : Vector Report 8} (h : ∀ i : CwIndex, (reps.get i).verdict = .clean)
    (s : State) (ch : ChanId) (n : Nat) (src : ReadSource) : s.deliver ch n src reps = s := by
  unfold State.deliver
  rw [hasEvents_eq_false.mpr h]
  rfl

/-! ### The frame of a decode with a delivery -/

/-- What a decode leaves of its part, where u stands between the read's own work and the delivery that leads to t. -/
structure State.DecodeFrame (s u t : State) (ch : ChanId) (n : Nat) (ks : List Cause) : Prop where
  onlyChannel : s.OnlyChannel t ch
  kept        : (s.chan ch).KeptByDecode (t.chan ch)
  flights     : (t.chan ch).flights = (u.chan ch).flights.map ((s.chan ch).movedBy (t.chan ch))
  queue       : (t.chan ch).queue = (u.chan ch).queue
  owed        : (t.chan ch).owed = (u.chan ch).owed
  wbq         : (t.chan ch).wbq = (u.chan ch).wbq
  patrol      : (t.chan ch).patrol = (u.chan ch).patrol
  demandCount : (t.chan ch).demandCount = (s.chan ch).demandCount
  table       : s.TableKeptBut t ch n
  causes      : s.CausesKeptBut t (.ue :: .ueCritical :: .tableFull :: .spareExhausted :: ks)

/-- Marks by what has changed look only at the slots. -/
theorem Channel.movedBy_congr {b c : Channel} (h : b.slots = c.slots) (d : Channel) : b.movedBy d = c.movedBy d := by
  funext f
  unfold Channel.movedBy
  rw [h]

/-- The frame that goes with State.delivers_handsOver: the events go to Capture and Alert, the read's own work changes
of the channel only its queues, reads in flight and Patrol Engine, and no causes but those named. -/
theorem State.decode_frame {s u : State} {ch : ChanId} (src : ReadSource) (n : Nat) (loc : Loc) (tag : Option Byte)
    (reps : Vector Report 8) (ks : List Cause) (h1 : (s.captureRead ch src n loc tag reps).OnlyChannel u ch)
    (h2 : u.table = s.table)
    (h3 : ∀ k : Cause, k ∉ ks → hasCause u.causes k = hasCause (s.captureRead ch src n loc tag reps).causes k)
    (h4 : u.chan ch = { (s.captureRead ch src n loc tag reps).chan ch with
      queue := (u.chan ch).queue, owed := (u.chan ch).owed, flights := (u.chan ch).flights, wbq := (u.chan ch).wbq
      patrol := (u.chan ch).patrol }) :
    s.DecodeFrame u (u.deliver ch n src reps) ch n ks := by
  obtain ⟨a1, -, a3, a4⟩ := State.captureRead_spec s ch src n loc tag reps
  obtain ⟨d1, d2, d3, -⟩ := State.deliver_spec u ch n src reps
  have dm := State.deliver_moved u ch n src reps
  have dt := State.deliver_table u ch n src reps
  generalize s.captureRead ch src n loc tag reps = v at *
  generalize u.deliver ch n src reps = t at *
  have hslots : (u.chan ch).slots = (s.chan ch).slots := by rw [h4, a4]
  refine ⟨(a1.trans h1).trans d1, ?_, ?_, ?_, ?_, ?_, ?_, ?_, ?_, ?_⟩
  · unfold Channel.KeptByDecode
    rw [d3, h4, a4]
  · rw [dm, Channel.movedBy_congr hslots]
  · rw [d3]
  · rw [d3]
  · rw [d3]
  · rw [d3]
  · rw [d3, h4, a4]
  · unfold State.TableKeptBut State.TableSound at dt ⊢
    rwa [h2] at dt
  · intro k hk
    simp only [List.mem_cons, not_or] at hk
    obtain ⟨hue, hcrit, hfull, hspare, hks⟩ := hk
    rw [d2 k hfull hspare, h3 k hks, a3 k hue hcrit]

/-! ### The plan and the outcome of a merged write (R88, R89) -/

theorem Verdict.isCe_iff {v : Verdict} : v.isCe = true ↔ ∃ p, v = .corrected p := by
  cases v <;> simp [Verdict.isCe]

section
variable (data : LineData) (mask : BitVec 64) (wb : Bool) (reps : Vector Report 8) (i : CwIndex)

theorem mergePlan_get : (mergePlan data mask wb reps).get i = mergeWriteOf data mask wb reps i := Vector.get_ofFn _ i

variable {mask i}

theorem mergeWriteOf_full (h : maskOf mask i = 0xFF) :
    mergeWriteOf data mask wb reps i = .word (encode (LineData.codeword data i)) := by
  rw [mergeWriteOf, cwKind_full.mpr h]

theorem mergeWriteOf_partly (h : maskOf mask i ≠ 0xFF) (h0 : maskOf mask i ≠ 0) :
    mergeWriteOf data mask wb reps i = if (reps.get i).verdict.isLost then .marker
      else .word (encode (mergeBytes (maskOf mask i) (reps.get i).data (LineData.codeword data i))) := by
  rw [mergeWriteOf, cwKind_partly.mpr ⟨h, h0⟩]

variable {reps}

theorem mergeWriteOf_untouched_uncorrectable (h : maskOf mask i = 0) (hv : (reps.get i).verdict = .uncorrectable) :
    mergeWriteOf data mask wb reps i = .marker := by
  rw [mergeWriteOf, cwKind_untouched.mpr h, hv]

theorem mergeWriteOf_untouched_written {w : Codeword} (h : maskOf mask i = 0)
    (hv : (reps.get i).verdict.isCe = true) (hf : (reps.get i).fixed = some w) :
    mergeWriteOf data mask true reps i = .word w := by
  obtain ⟨p, hp⟩ := Verdict.isCe_iff.mp hv
  rw [mergeWriteOf, cwKind_untouched.mpr h, hp, hf]
  rfl

theorem mergeWriteOf_untouched_unwritten (h : maskOf mask i = 0) (hv : (reps.get i).verdict.isCe = true) :
    mergeWriteOf data mask false reps i = .keep := by
  obtain ⟨p, hp⟩ := Verdict.isCe_iff.mp hv
  rw [mergeWriteOf, cwKind_untouched.mpr h, hp]
  cases (reps.get i).fixed <;> rfl

theorem mergeWriteOf_untouched_kept (h : maskOf mask i = 0)
    (hv : (reps.get i).verdict = .clean ∨ (reps.get i).verdict = .poison) :
    mergeWriteOf data mask wb reps i = .keep := by
  rw [mergeWriteOf, cwKind_untouched.mpr h]
  rcases hv with hv | hv <;> rw [hv]

end

theorem any_not_full_iff (mask : BitVec 64) (p : CwIndex → Bool) :
    (List.finRange 8).any (fun i => cwKind mask i != .full && p i) = true ↔
      ∃ i : CwIndex, maskOf mask i ≠ 0xFF ∧ p i = true := by
  simp [List.any_eq_true, cwKind_full]

/-! ### The decode of a merge read -/

theorem exec_mergeReadDecode_of {s : State} {ch : ChanId} {f : Flight} {rest : List Flight} {q : QEntry} {p : Probe}
    {data : LineData} {mask : BitVec 64} (upsets : LineWords) (hfl : (s.chan ch).flights = f :: rest)
    (hkind : f.kind = .merge q.seq) (hq : (s.chan ch).queue.find? (fun x => x.seq == q.seq) = some q)
    (hstage : q.stage = .mergeIssued p) (hreq : q.req.kind = .write data mask) :
    exec (.mergeReadDecode ch upsets) s = .next (s.mergeDecode ch q p data mask f (reportsOf f.words upsets)) := by
  have hplace : (s.chan ch).place q.seq = some q := hq
  simp only [exec_mergeReadDecode, execMergeReadDecode, hfl, hkind, hplace, hstage, hreq]

section
variable (s : State) (ch : ChanId) (q : QEntry) (p : Probe) (data : LineData) (mask : BitVec 64) (f : Flight)
  (reps : Vector Report 8)

/-- What the write after a merge read will write, by the policy of the line's class (R88). -/
def State.planOf : Vector CwWrite 8 := mergePlan data mask (s.policy (s.classOf ch q.req.line)).demandWb reps

/-- The state between a merge read's own work and its delivery. -/
def State.mergePlanned : State :=
  (s.captureRead ch .demandMerge q.req.line f.loc (some q.req.tag) reps).modChan ch (fun c =>
    c.popFlight.setStage q.seq (.mergeDecoded p (s.planOf ch q data mask reps) (mergeOutcome mask reps)))

theorem State.mergeDecode_eq : s.mergeDecode ch q p data mask f reps =
    (s.mergePlanned ch q p data mask f reps).deliver ch q.req.line .demandMerge reps := rfl

/-- A merge read's own work changes of its channel the queue and the reads in flight alone (R87). -/
theorem State.mergePlanned_chan : (s.mergePlanned ch q p data mask f reps).chan ch =
    { (s.captureRead ch .demandMerge q.req.line f.loc (some q.req.tag) reps).chan ch with
      flights := (s.chan ch).flights.tail
      queue := (s.chan ch).queue.map (fun x => if x.seq = q.seq then
        { x with stage := .mergeDecoded p (s.planOf ch q data mask reps) (mergeOutcome mask reps) } else x) } := by
  obtain ⟨-, -, -, a4⟩ := State.captureRead_spec s ch .demandMerge q.req.line f.loc (some q.req.tag) reps
  rw [State.mergePlanned, State.chan_modChan_same, a4]
  rfl

theorem State.mergePlanned_table : (s.mergePlanned ch q p data mask f reps).table = s.table :=
  (State.captureRead_spec s ch .demandMerge q.req.line f.loc (some q.req.tag) reps).2.1

theorem State.mergeDecode_frame :
    s.DecodeFrame (s.mergePlanned ch q p data mask f reps) (s.mergeDecode ch q p data mask f reps) ch q.req.line
      [] := by
  rw [State.mergeDecode_eq]
  exact State.decode_frame .demandMerge q.req.line f.loc (some q.req.tag) reps [] (State.onlyChannel_modChan _ _ _)
    (s.mergePlanned_table ch q p data mask f reps) (fun _ _ => rfl) (by rw [State.mergePlanned_chan])

theorem State.mergeDecode_delivers_handsOver :
    s.Delivers (s.mergeDecode ch q p data mask f reps) ch q.req.line .demandMerge reps ∧
      s.HandsOver (s.mergeDecode ch q p data mask f reps) ch .demandMerge q.req.line f.loc (some q.req.tag) reps := by
  rw [State.mergeDecode_eq]
  exact State.delivers_handsOver .demandMerge q.req.line f.loc (some q.req.tag) reps (State.onlyChannel_modChan _ _ _)
    (s.mergePlanned_table ch q p data mask f reps) (fun _ _ => rfl) (by rw [State.mergePlanned_chan])

variable {reps}

/-- With no event the decode changes the queue and the reads in flight alone. -/
theorem State.mergeDecode_clean (h : ∀ i : CwIndex, (reps.get i).verdict = .clean) :
    s.mergeDecode ch q p data mask f reps = { s with chans := (s.mergeDecode ch q p data mask f reps).chans } ∧
      (s.mergeDecode ch q p data mask f reps).chan ch =
        { s.chan ch with
          flights := (s.chan ch).flights.tail
          queue := ((s.mergeDecode ch q p data mask f reps).chan ch).queue } := by
  rw [State.mergeDecode_eq, State.deliver_clean h, State.mergePlanned_chan, State.mergePlanned,
    State.captureRead_clean h]
  exact ⟨rfl, rfl⟩

end

/-- Settles O43: the plan and the outcome case by case, and the decode as a capture, its own work and a delivery. -/
theorem mergeReadDecodes : Obligations.MergeReadDecodes := by
  refine ⟨mergeBytes_byte, fun mask data i j => ⟨maskOf_getLsbD mask i j, codeword_byte data i j⟩, ?_⟩
  intro s ch upsets f rest q p data mask reps hfl hkind hq hstage hreq hreps
  have frame := s.mergeDecode_frame ch q p data mask f reps
  obtain ⟨hdel, hhand⟩ := s.mergeDecode_delivers_handsOver ch q p data mask f reps
  have hchan := s.mergePlanned_chan ch q p data mask f reps
  obtain ⟨-, -, -, hcap⟩ := State.captureRead_spec s ch .demandMerge q.req.line f.loc (some q.req.tag) reps
  have hplan : ∀ i, (s.planOf ch q data mask reps).get i =
      mergeWriteOf data mask (s.policy (s.classOf ch q.req.line)).demandWb reps i := mergePlan_get _ _ _ _
  have hexec : exec (.mergeReadDecode ch upsets) s = .next (s.mergeDecode ch q p data mask f reps) := by
    rw [hreps]
    exact exec_mergeReadDecode_of upsets hfl hkind hq hstage hreq
  refine ⟨s.mergeDecode ch q p data mask f reps, s.planOf ch q data mask reps, mergeOutcome mask reps, hexec,
    frame.onlyChannel, ?queue, fun i => ⟨?full, ?partly, fun h => ⟨?lost, ?written, ?unwritten, ?untouched⟩⟩, ?outcome,
    ?owed, ?wbq, frame.kept, ?flights, ?patrol, frame.demandCount, frame.table, hdel, hhand, frame.causes, ?clean⟩
  case queue => rw [frame.queue, hchan]
  case full => exact fun h => by rw [hplan, mergeWriteOf_full _ _ _ h]
  case partly => exact fun h h0 => by rw [hplan, mergeWriteOf_partly _ _ _ h h0]
  case lost => exact fun hv => by rw [hplan, mergeWriteOf_untouched_uncorrectable _ _ h hv]
  case written => exact fun w hv hf hwb => by rw [hplan, hwb, mergeWriteOf_untouched_written _ h hv hf]
  case unwritten => exact fun hv hwb => by rw [hplan, hwb, mergeWriteOf_untouched_unwritten _ h hv]
  case untouched => exact fun hv => by rw [hplan, mergeWriteOf_untouched_kept _ _ h hv]
  case outcome => exact if_congr (any_not_full_iff mask _) rfl (if_congr (any_not_full_iff mask _) rfl rfl)
  case owed => rw [frame.owed, hchan, hcap]
  case wbq => rw [frame.wbq, hchan, hcap]
  case flights => rw [frame.flights, hchan, hfl, List.tail_cons]
  case patrol => rw [frame.patrol, hchan, hcap]
  case clean =>
    intro h
    obtain ⟨hs, hc⟩ := s.mergeDecode_clean ch q p data mask f h
    rw [hfl, List.tail_cons] at hc
    exact ⟨hs, hc⟩

end Sys2Proof.Machine
end

section
/-! SUPPORT. What a step can do to the table, the spare slots and the migrations, said once: a short list of moves, and that
every step is a run of them. An invariant of the three is kept by every step as soon as each move keeps it. -/

namespace Sys2Proof.Machine

/-! ### Changes that the Spare Pool does not see -/

/-- A record that differs from another in nothing that the key order, the Spare Pool or a Migration Unit looks at. -/
structure Record.Like (r q : Record) : Prop where
  key        : q.key = r.key
  inRange    : r.InRange → q.InRange
  spareSlot  : q.spareSlot = r.spareSlot
  targetSlot : q.targetSlot = r.targetSlot
  priorState : q.priorState = r.priorState
  state      : q.state = r.state ∨ (r.state = .watch ∨ r.state = .hot) ∧ (q.state = .watch ∨ q.state = .hot)

theorem Record.Like.refl (r : Record) : r.Like r := ⟨rfl, id, rfl, rfl, rfl, .inl rfl⟩

theorem Record.Like.trans {a b c : Record} (h : a.Like b) (k : b.Like c) : a.Like c := by
  refine ⟨k.key.trans h.key, fun x => k.inRange (h.inRange x), k.spareSlot.trans h.spareSlot,
    k.targetSlot.trans h.targetSlot, k.priorState.trans h.priorState, ?_⟩
  rcases h.state with h1 | h1 <;> rcases k.state with k1 | k1
  · exact .inl (k1.trans h1)
  · exact .inr ⟨h1 ▸ k1.1, k1.2⟩
  · exact .inr ⟨h1.1, k1 ▸ h1.2⟩
  · exact .inr ⟨h1.1, k1.2⟩

/-- What of a migration the records and the Spare Pool must agree with. -/
def Migration.place (m : Migration) : Nat × SlotId × Loc := (m.line, m.target, m.source)

/-- A channel that differs from another neither in its ALLOCATED slots nor in its migration's line, target and source. -/
def Channel.Like (c d : Channel) : Prop :=
  (∀ i : SlotId, d.slots.get i = .allocated ↔ c.slots.get i = .allocated) ∧
    d.migration.map Migration.place = c.migration.map Migration.place

theorem Channel.Like.of_eq {c d : Channel} (hs : d.slots = c.slots) (hm : d.migration = c.migration) : c.Like d :=
  ⟨fun i => by rw [hs], by rw [hm]⟩

theorem Channel.Like.refl (c : Channel) : c.Like c := .of_eq rfl rfl

/-- A state that differs from another in nothing of that kind. -/
def State.Alike (s t : State) : Prop :=
  List.Forall₂ Record.Like s.table t.table ∧ ∀ c : ChanId, (s.chan c).Like (t.chan c)

section
variable {s t : State} {ch : ChanId}

theorem Record.forall₂_like_refl (l : List Record) : List.Forall₂ Record.Like l l :=
  List.forall₂_same.mpr fun r _ => Record.Like.refl r

theorem Record.forall₂_like_map {f : Record → Record} (hf : ∀ r : Record, r.Like (f r)) (l : List Record) :
    List.Forall₂ Record.Like l (l.map f) := by
  rw [List.forall₂_map_right_iff]
  exact List.forall₂_same.mpr fun r _ => hf r

theorem State.Alike.of_table (h : t.table = s.table) (hc : ∀ c : ChanId, (s.chan c).Like (t.chan c)) : s.Alike t :=
  ⟨h ▸ Record.forall₂_like_refl s.table, hc⟩

theorem State.Alike.of_chans {f : Record → Record} (hf : ∀ r : Record, r.Like (f r)) (h : t.table = s.table.map f)
    (hc : t.chans = s.chans) : s.Alike t := by
  refine ⟨h ▸ Record.forall₂_like_map hf s.table, fun c => ?_⟩
  unfold State.chan
  rw [hc]
  exact .refl _

theorem State.Alike.of_eq (h : t.table = s.table) (hc : t.chans = s.chans) : s.Alike t :=
  .of_chans Record.Like.refl (h.trans (List.map_id _).symm) hc

theorem State.Alike.refl (s : State) : s.Alike s := .of_eq rfl rfl

/-- Channels that are all like their earlier selves: one that is, and others that are as they were. -/
theorem State.like_of_others (h : ∀ c : ChanId, c ≠ ch → t.chan c = s.chan c) (hc : (s.chan ch).Like (t.chan ch))
    (c : ChanId) : (s.chan c).Like (t.chan c) := by
  by_cases e : c = ch
  · exact e ▸ hc
  · exact h c e ▸ .refl _

theorem State.alike_modChan {f : Channel → Channel} (h : (s.chan ch).Like (f (s.chan ch))) : s.Alike (s.modChan ch f) :=
  .of_table rfl (State.like_of_others (State.onlyChannel_modChan s ch f).2 (by rwa [State.chan_modChan_same]))

theorem State.alike_modAllChans {f : Channel → Channel} (h : ∀ c : Channel, c.Like (f c)) : s.Alike (s.modAllChans f) :=
  .of_table rfl fun c => by rw [State.chan_modAllChans]; exact h _

theorem State.alike_modRec {n : Nat} {f : Record → Record} (h : ∀ r : Record, r.Like (f r)) :
    s.Alike (s.modRec ch n f) := by
  refine .of_chans (f := fun r => if r.key = { channel := ch, line := n } then f r else r) (fun r => ?_) rfl rfl
  split
  · exact h r
  · exact .refl r

end

/-! ### The moves -/

/-- A record as a delivery or ADOPT may create it: with no slot, no target and no migration. -/
def Record.Unspared (r : Record) : Prop :=
  r.InRange ∧ (r.state = .watch ∨ r.state = .hot ∨ r.state = .retired) ∧ r.spareSlot = none ∧ r.targetSlot = none ∧
    r.priorState = none

/-- The state in which a migration has ended without a commit, its target slot in a state other than ALLOCATED. -/
def State.unitFreed (s : State) (ch : ChanId) (m : Migration) (setHold : Bool) (st : SlotState) : State :=
  (s.dropMigration ch m setHold).modChan ch (fun c => c.setSlot m.target st)

/-- The state in which a migration has committed, before its selection (R31, R162). -/
def State.committed (s : State) (ch : ChanId) (m : Migration) : State :=
  let s1 := (s.modRec ch m.line Record.commit).modChan ch (fun c => { c with migration := none })
  match m.source with
  | .slot old => s1.modChan ch (fun c => c.setSlot old .defective)
  | .line _   => s1

/-- One move of the table, the spare slots and the migrations. -/
inductive State.Moves : State → State → Prop
  /-- nothing that the Spare Pool sees has changed -/
  | alike {s t : State} : s.Alike t → Moves s t
  /-- the record of a line takes the events of a delivery (R22, R48) -/
  | rescored {s : State} {ch : ChanId} {n : Nat} {r q : Record} : s.rec? ch n = some r → r.Like q →
      Moves s { s with table := updateRec s.table { channel := ch, line := n } (fun _ => q) }
  /-- records that name no slot are removed: RELEASE and the decay (R45, R57) -/
  | removed {s : State} (p : Record → Bool) :
      (∀ r ∈ s.table, p r = false → ∃ q ∈ s.table, q.key = r.key ∧ q.state.releasable = true) →
      Moves s { s with table := s.table.filter p }
  /-- a record is created for a key that has none, after an eviction where the table is full (R25, R26, R42) -/
  | created {s : State} {l : List Record} {r : Record} : findRec s.table r.key = none → makeRoom s.table = some l →
      r.Unspared → Moves s { s with table := insertRec l r }
  /-- ADOPT creates a SPARED record on a FREE slot (R42) -/
  | adopted {s : State} {k : Key} {i : SlotId} : findRec s.table k = none → s.table.length < tableCapacity →
      (s.chan k.channel).slots.get i = .free → Moves s (s.adopt k (.spared i))
  /-- RETIRE of a record that no migration works on (R34, R44) -/
  | retired {s : State} {ch : ChanId} {n : Nat} {r : Record} : s.rec? ch n = some r →
      r.state ≠ .sparing ∨ (s.chan ch).migration = none →
      Moves s ((s.retireSlot ch n).modRec ch n Record.retire)
  /-- a migration starts on a FREE slot (R149) -/
  | started {s : State} {r : Record} {i : SlotId} (b : Bool) : (s.chan r.key.channel).migration = none →
      r ∈ s.table → r.state.sparable = true → (s.chan r.key.channel).slots.get i = .free →
      Moves s (s.startMigration r i b)
  /-- a migration ends without a commit (R32, R151, R161, R165) -/
  | ended {s : State} {ch : ChanId} {m : Migration} (b : Bool) (st : SlotState) : (s.chan ch).migration = some m →
      st ≠ .allocated → Moves s (s.unitFreed ch m b st)
  /-- a migration takes another target slot (R160) -/
  | retried {s : State} {ch : ChanId} {m : Migration} {i : SlotId} : (s.chan ch).migration = some m →
      (s.chan ch).slots.get i = .free →
      Moves s ((s.modRec ch m.line (fun r => { r with targetSlot := some i })).modChan ch (fun c =>
        { ((c.setSlot m.target .defective).setSlot i .allocated) with migration := some { m with target := i } }))
  /-- a migration commits (R31, R162) -/
  | committed {s : State} {ch : ChanId} {m : Migration} : (s.chan ch).migration = some m → Moves s (s.committed ch m)
  /-- the power-on reset (R201) -/
  | emptied {s t : State} : t.table = [] →
      (∀ c : ChanId, (t.chan c).migration = none ∧ ∀ i : SlotId, (t.chan c).slots.get i ≠ .allocated) → Moves s t

/-- A run of moves. -/
abbrev State.Evolves : State → State → Prop := Relation.ReflTransGen State.Moves

theorem State.Moves.evolves {s t : State} (h : s.Moves t) : s.Evolves t := .single h

theorem State.Alike.evolves {s t : State} (h : s.Alike t) : s.Evolves t := .single (.alike h)

theorem State.Evolves.alike {s t u : State} (h : s.Evolves t) (k : t.Alike u) : s.Evolves u := h.tail (.alike k)

theorem State.Evolves.of_eq {s t : State} (h : t.table = s.table) (hc : t.chans = s.chans) : s.Evolves t :=
  (State.Alike.of_eq h hc).evolves

theorem State.Evolves.of_table {s t : State} (h : t.table = s.table) (hc : ∀ c : ChanId, (s.chan c).Like (t.chan c)) :
    s.Evolves t := (State.Alike.of_table h hc).evolves

theorem State.Evolves.trans {s t u : State} (h : s.Evolves t) (k : t.Evolves u) : s.Evolves u :=
  Relation.ReflTransGen.trans h k

/-- A run of moves does not look at what lies outside the table and the channels. -/
theorem State.Evolves.frame {s t u : State} (h : s.Evolves t) (ht : u.table = t.table) (hc : u.chans = t.chans) :
    s.Evolves u := h.alike (.of_eq ht hc)

/-! ### Selections -/

theorem State.isCandidate_spec {s : State} {ch : ChanId} {r : Record} (h : s.isCandidate ch r = true) :
    r.key.channel = ch ∧ r.spareWanted = true ∧ r.hold = false ∧
      (s.policy (s.classOf ch r.key.line)).autoSpare = true ∧ r.state.sparable = true := by
  simp only [State.isCandidate, Bool.and_eq_true, decide_eq_true_eq, Bool.not_eq_true'] at h
  obtain ⟨⟨⟨⟨hch, hw⟩, hh⟩, hp⟩, hs⟩ := h
  exact ⟨hch, hw, hh, hch ▸ hp, hs⟩

theorem State.refuseSlots_alike (s : State) (ch : ChanId) : s.Alike (s.refuseSlots ch) := by
  obtain ⟨ho, ht, -, hc⟩ := State.refuseSlots_spec s ch
  exact .of_table ht (State.like_of_others ho.2 (hc ▸ .of_eq rfl rfl))

theorem State.select_evolves (s : State) (ch : ChanId) : s.Evolves (s.select ch) := by
  cases hm : (s.chan ch).migration with
  | some m =>
    rw [State.select_busy (by rw [hm]; rfl)]
  | none =>
    rw [State.select_idle hm]
    cases hc : s.chosen ch with
    | none => exact .refl
    | some r =>
      obtain ⟨hr, hcand, hk⟩ := State.chosen_spec hc
      cases hf : (s.chan ch).lowestFree with
      | none => exact (s.refuseSlots_alike ch).evolves
      | some i =>
        refine (State.Moves.started false (hk ▸ hm) hr ?_ (hk ▸ (Channel.lowestFree_eq_some.mp hf).1)).evolves
        exact (State.isCandidate_spec hcand).2.2.2.2

theorem State.selectAll_evolves (s : State) (l : List ChanId) : s.Evolves (s.selectAll l) := by
  induction l generalizing s with
  | nil => exact .refl
  | cons c l ih => exact (s.select_evolves c).trans (ih _)

/-! ### Deliveries and captures -/

theorem Record.evaluate_like (r : Record) (p : Policy) : r.Like (r.evaluate p) := by
  refine ⟨rfl, id, rfl, rfl, rfl, ?_⟩
  unfold Record.evaluate
  dsimp only
  split
  · next h => exact .inr ⟨.inl h.1, .inr rfl⟩
  · exact .inl rfl

theorem Record.scoreCe_like (r : Record) (w : Settings) (p : BitPos) : r.Like (r.scoreCe w p) := by
  unfold Record.scoreCe
  split
  · refine ⟨rfl, fun h => ?_, rfl, rfl, rfl, .inl rfl⟩
    simp [Record.InRange, maxScore]
  · refine ⟨rfl, fun h => ?_, rfl, rfl, rfl, .inl rfl⟩
    simp [Record.InRange, maxScore]

theorem Record.scoreUe_like (r : Record) : r.Like r.scoreUe :=
  ⟨rfl, fun h => ⟨le_refl _, h.2.1, Nat.zero_le _⟩, rfl, rfl, rfl, .inl rfl⟩

theorem Record.applyEvent_like (r : Record) (w : Settings) (p : Policy) (i : CwIndex) (v : Verdict) :
    r.Like (r.applyEvent w p i v).1 := by
  unfold Record.applyEvent
  split
  · exact .refl r
  · cases v with
    | clean => exact .refl r
    | corrected q => exact (r.scoreCe_like w q).trans (Record.evaluate_like _ p)
    | uncorrectable => exact r.scoreUe_like.trans (Record.evaluate_like _ p)
    | poison => exact ⟨rfl, id, rfl, rfl, rfl, .inl rfl⟩

theorem Record.applyEvents_like (r : Record) (w : Settings) (p : Policy) (reps : Vector Report 8) :
    r.Like (r.applyEvents w p reps).1 := by
  rw [Record.applyEvents_fst]
  unfold Record.afterEvents
  generalize List.finRange 8 = l
  induction l generalizing r with
  | nil => exact .refl r
  | cons i is ih => exact (r.applyEvent_like w p i _).trans (ih _)

theorem newRecord_unspared (k : Key) (o : Origin) : (newRecord k o).Unspared :=
  ⟨by simp [Record.InRange, newRecord], .inl rfl, rfl, rfl, rfl⟩

theorem Record.Like.unspared {r q : Record} (h : r.Like q) (k : r.Unspared) : q.Unspared := by
  obtain ⟨k1, k2, k3, k4, k5⟩ := k
  refine ⟨h.inRange k1, ?_, h.spareSlot.trans k3, h.targetSlot.trans k4, h.priorState.trans k5⟩
  rcases h.state with e | ⟨-, e⟩
  · rwa [e]
  · tauto

theorem State.record_evolves (s : State) (ch : ChanId) (n : Nat) (src : ReadSource) (reps : Vector Report 8) :
    s.Evolves (s.record ch n src reps).1 := by
  unfold State.record
  dsimp only
  split
  · next r hr => exact (State.Moves.rescored hr (r.applyEvents_like _ _ _)).evolves
  · next hr =>
    split
    · next l hl =>
      have hlike := (newRecord { channel := ch, line := n } (originOf src)).applyEvents_like s.settings
        (s.policy (s.classOf ch n)) reps
      refine (State.Moves.created ?_ hl (hlike.unspared (newRecord_unspared _ _))).evolves
      rw [hlike.key]
      exact hr
    · exact State.Evolves.of_eq (t := s.raise .tableFull) rfl rfl

theorem State.deliver_evolves (s : State) (ch : ChanId) (n : Nat) (src : ReadSource) (reps : Vector Report 8) :
    s.Evolves (s.deliver ch n src reps) := by
  unfold State.deliver
  split
  · split
    · exact (s.record_evolves ch n src reps).trans (State.select_evolves _ ch)
    · exact s.record_evolves ch n src reps
  · exact .refl

theorem State.captureRead_alike (s : State) (ch : ChanId) (src : ReadSource) (n : Nat) (loc : Loc) (tag : Option Byte)
    (reps : Vector Report 8) : s.Alike (s.captureRead ch src n loc tag reps) := by
  obtain ⟨ho, ht, -, hc⟩ := State.captureRead_spec s ch src n loc tag reps
  exact .of_table ht (State.like_of_others ho.2 (hc ▸ .of_eq rfl rfl))

/-- A capture, a change of the channel that the Spare Pool does not see, and a delivery. -/
theorem State.decode_evolves (s : State) (ch : ChanId) (src : ReadSource) (n : Nat) (loc : Loc) (tag : Option Byte)
    (reps : Vector Report 8) {u : State} (hu : (s.captureRead ch src n loc tag reps).Alike u) :
    s.Evolves (u.deliver ch n src reps) :=
  ((s.captureRead_alike ch src n loc tag reps).evolves.alike hu).trans (u.deliver_evolves ch n src reps)

end Sys2Proof.Machine
end

section
/-! SUPPORT. The moves of the Migration Unit, the pass end, the walk and the cadence. -/

namespace Sys2Proof.Machine

/-! ### The ends of a migration -/

theorem State.cancelMigration_evolves (s : State) (ch : ChanId) (b : Bool) : s.Evolves (s.cancelMigration ch b) := by
  unfold State.cancelMigration
  split
  · exact .refl
  · next m hm => exact (State.Moves.ended b .free hm (by decide)).evolves

theorem State.chan_dropMigration (s : State) (ch : ChanId) (m : Migration) (b : Bool) :
    (s.dropMigration ch m b).chan ch = { s.chan ch with
      migration := none, flights := (s.chan ch).flights.map (fun f => { f with kind := f.kind.endMigration }) } := by
  unfold State.dropMigration
  rw [State.chan_modChan_same]
  rfl

theorem State.dropMigration_onlyChannel (s : State) (ch : ChanId) (m : Migration) (b : Bool) :
    s.OnlyChannel (s.dropMigration ch m b) ch :=
  (State.onlyChannel_modRec _ _ _ _ _).trans (State.onlyChannel_modChan _ _ _)

theorem State.unitFreed_onlyChannel (s : State) (ch : ChanId) (m : Migration) (b : Bool) (st : SlotState) :
    s.OnlyChannel (s.unitFreed ch m b st) ch :=
  (s.dropMigration_onlyChannel ch m b).trans (State.onlyChannel_modChan _ _ _)

@[simp] theorem State.unitFreed_table (s : State) (ch : ChanId) (m : Migration) (b : Bool) (st : SlotState) :
    (s.unitFreed ch m b st).table =
      updateRec s.table { channel := ch, line := m.line } (fun r => r.leaveSparing b) := rfl

@[simp] theorem State.unitFreed_slots (s : State) (ch : ChanId) (m : Migration) (b : Bool) (st : SlotState) :
    ((s.unitFreed ch m b st).chan ch).slots = (s.chan ch).slots.set m.target.val st := by
  unfold State.unitFreed
  rw [State.chan_modChan_same, Channel.setSlot_slots, State.chan_dropMigration]

@[simp] theorem State.unitFreed_migration (s : State) (ch : ChanId) (m : Migration) (b : Bool) (st : SlotState) :
    ((s.unitFreed ch m b st).chan ch).migration = none := by
  unfold State.unitFreed
  rw [State.chan_modChan_same, Channel.setSlot_migration, State.chan_dropMigration]

/-- A channel that has lost its migration, its target slot changed before (R161). -/
theorem State.failMigration_evolves {s u : State} {ch : ChanId} {m : Migration} (hm : (s.chan ch).migration = some m)
    (ho : s.OnlyChannel u ch) (ht : u.table = s.table)
    (hs : (u.chan ch).slots = (s.chan ch).slots.set m.target.val .defective) :
    s.Evolves (u.failMigration ch m) := by
  have hend : s.Evolves (s.unitFreed ch m true .defective) := (State.Moves.ended true _ hm (by decide)).evolves
  refine (hend.alike (u := (u.dropMigration ch m true).raise .migrationFailed) ?_).trans (State.select_evolves _ ch)
  refine .of_table ?_ fun c => ?_
  · show updateRec u.table _ _ = updateRec s.table _ _
    rw [ht]
  · rw [State.chan_raise]
    by_cases hc : c = ch
    · subst hc
      refine .of_eq ?_ ?_
      · rw [State.chan_dropMigration, State.unitFreed_slots]; exact hs
      · rw [State.chan_dropMigration, State.unitFreed_migration]
    · rw [(s.unitFreed_onlyChannel ch m true .defective).2 c hc, (u.dropMigration_onlyChannel ch m true).2 c hc,
        ho.2 c hc]
      exact .refl _

/-- A slot that stands FREE after another has become DEFECTIVE stood FREE before (R141). -/
theorem Channel.free_of_set {c : Channel} {i j : SlotId} {st : SlotState} (hst : st ≠ .free)
    (h : (c.slots.set i.val st).get j = .free) : c.slots.get j = .free := by
  rw [Vector.get_eq_getElem, Vector.getElem_set] at h
  split at h
  · exact absurd h hst
  · exact h

theorem State.failVerify_evolves {s : State} {ch : ChanId} {m : Migration} (hm : (s.chan ch).migration = some m) :
    s.Evolves (s.failVerify ch m) := by
  have ho : s.OnlyChannel (s.modChan ch (fun c => c.setSlot m.target .defective)) ch := State.onlyChannel_modChan _ _ _
  have hs : ((s.modChan ch (fun c => c.setSlot m.target .defective)).chan ch).slots =
      (s.chan ch).slots.set m.target.val .defective := by
    rw [State.chan_modChan_same, Channel.setSlot_slots]
  unfold State.failVerify
  dsimp only
  split
  · unfold State.retryMigration
    split
    · next i hi =>
      have hfree := (Channel.lowestFree_eq_some.mp hi).1
      rw [hs] at hfree
      refine (State.Moves.retried hm (Channel.free_of_set (by decide) hfree)).evolves.alike (.of_table rfl fun c => ?_)
      by_cases hc : c = ch
      · subst hc
        simp only [State.chan_modChan_same, State.chan_modRec]
        exact ⟨fun i => Iff.rfl, rfl⟩
      · rw [State.chan_modChan_of_ne _ _ _ _ hc, State.chan_modChan_of_ne _ _ _ _ hc, State.chan_modRec,
          State.chan_modRec, State.chan_modChan_of_ne _ _ _ _ hc]
        exact .refl _
    · obtain ⟨ro, rt, -, rc⟩ := State.refuseSlots_spec (s.modChan ch (fun c => c.setSlot m.target .defective)) ch
      exact State.failMigration_evolves hm (ho.trans ro) rt (by rw [rc]; exact hs)
  · exact State.failMigration_evolves hm ho rfl hs

theorem State.commitMigration_eq (s : State) (ch : ChanId) (m : Migration) :
    s.commitMigration ch m = ((s.committed ch m).raise .migrationDone).select ch := by
  unfold State.commitMigration State.committed
  rfl

theorem State.commitMigration_evolves {s : State} {ch : ChanId} {m : Migration} (hm : (s.chan ch).migration = some m) :
    s.Evolves (s.commitMigration ch m) := by
  rw [State.commitMigration_eq]
  have h : s.Evolves ((s.committed ch m).raise .migrationDone) :=
    State.Evolves.frame (State.Moves.committed hm).evolves rfl rfl
  exact h.trans (State.select_evolves _ ch)

theorem State.migrationReports_evolves (s : State) (ch : ChanId) (f : Flight) (reps : Vector Report 8) :
    s.Evolves (s.migrationReports ch f reps) :=
  s.decode_evolves ch .migration f.line f.loc none reps (State.alike_modChan (.of_eq rfl rfl))

/-- The delivery of a migration read whose unit is busy changes of its channel only what Capture and Alert hold and the
reads in flight (R147, R168). -/
theorem State.migrationReports_chan {s : State} {ch : ChanId} (h : (s.chan ch).migration.isSome = true) (f : Flight)
    (reps : Vector Report 8) :
    (s.migrationReports ch f reps).chan ch =
      ((s.captureRead ch .migration f.line f.loc none reps).chan ch).popFlight := by
  obtain ⟨-, -, -, hc⟩ := State.captureRead_spec s ch .migration f.line f.loc none reps
  unfold State.migrationReports
  rw [State.deliver_busy, State.chan_modChan_same]
  rw [State.chan_modChan_same, hc]
  exact h

theorem State.migrationReports_migration {s : State} {ch : ChanId} {m : Migration}
    (h : (s.chan ch).migration = some m) (f : Flight) (reps : Vector Report 8) :
    ((s.migrationReports ch f reps).chan ch).migration = some m := by
  obtain ⟨-, -, -, hc⟩ := State.captureRead_spec s ch .migration f.line f.loc none reps
  rw [State.migrationReports_chan (by rw [h]; rfl), hc]
  exact h

theorem State.verifyDecode_evolves {s : State} {ch : ChanId} {m : Migration} (hm : (s.chan ch).migration = some m)
    (f : Flight) (reps : Vector Report 8) : s.Evolves (s.verifyDecode ch m f reps) := by
  have hm' := State.migrationReports_migration hm f reps
  unfold State.verifyDecode
  split
  · exact (s.migrationReports_evolves ch f reps).trans (State.commitMigration_evolves hm')
  · exact (s.migrationReports_evolves ch f reps).trans (State.failVerify_evolves hm')

theorem State.copyDecode_evolves {s : State} {ch : ChanId} {m : Migration} (hm : (s.chan ch).migration = some m)
    (f : Flight) (reps : Vector Report 8) : s.Evolves (s.copyDecode ch m f reps) := by
  refine (s.migrationReports_evolves ch f reps).alike (State.alike_modChan ⟨fun i => ?_, ?_⟩)
  · dsimp only
    split
    · rfl
    · rw [Channel.owe_slots]
  · rw [State.migrationReports_migration hm]
    rfl

/-! ### Pass ends, the walk and the cadence -/

theorem Record.decay_like (r : Record) (shift : Nat) (p : Policy) : r.Like (r.decay shift p) := by
  unfold Record.decay
  refine ⟨rfl, fun h => ⟨?_, h.2.1, ?_⟩, rfl, rfl, rfl, ?_⟩
  · have hs : decayScore shift r.score ≤ r.score := by
      unfold decayScore
      split
      · exact Nat.zero_le _
      · exact Nat.sub_le _ _
    exact hs.trans h.1
  · exact Nat.min_le_left _ _
  · dsimp only
    split
    · next h => exact .inr ⟨.inr h.1, .inl rfl⟩
    · exact .inl rfl

/-- A record of a channel as the decay's arithmetic leaves it, before the ones that fade are removed (R54 to R56). -/
def State.decayed (s : State) (ch : ChanId) (r : Record) : Record :=
  if r.key.channel = ch ∧ r.state.decays = true then
    r.decay s.settings.decayShift (s.policy (s.classOf r.key.channel r.key.line))
  else r

theorem State.decayed_like (s : State) (ch : ChanId) (r : Record) : r.Like (s.decayed ch r) := by
  unfold State.decayed
  split
  · exact r.decay_like _ _
  · exact .refl r

/-- A faded record of a channel, which the decay removes (R57). -/
def Record.fadesOn (ch : ChanId) (r : Record) : Bool := decide (r.key.channel = ch) && r.fades

theorem State.decayRecord_eq (s : State) (ch : ChanId) (r : Record) :
    s.decayRecord ch r = if (s.decayed ch r).fadesOn ch then none else some (s.decayed ch r) := by
  unfold State.decayRecord State.decayed Record.fadesOn
  by_cases h : r.key.channel = ch ∧ r.state.decays = true
  · have hk : ∀ (n : Nat) (p : Policy), (r.decay n p).key.channel = ch := fun _ _ => h.1
    simp only [if_pos h, hk, decide_true, Bool.true_and]
  · have hf : (decide (r.key.channel = ch) && r.fades) = false := by
      by_cases hc : r.key.channel = ch
      · have hd : r.state ≠ .watch := fun e => h ⟨hc, by rw [e]; rfl⟩
        simp [Record.fades, hd]
      · simp [hc]
    simp only [if_neg h, hf, Bool.false_eq_true, if_false]

theorem State.decay_table_eq (s : State) (ch : ChanId) :
    s.table.filterMap (s.decayRecord ch) = (s.table.map (s.decayed ch)).filter (fun r => !r.fadesOn ch) := by
  rw [List.filter_map, ← List.filterMap_eq_filter, List.map_filterMap]
  apply List.filterMap_congr
  intro r _
  rw [State.decayRecord_eq]
  by_cases h : (s.decayed ch r).fadesOn ch = true <;> simp [h, Option.guard]

theorem State.endPass_evolves (s : State) (ch : ChanId) : s.Evolves (s.endPass ch) := by
  have h1 : s.Evolves { s with table := s.table.map (s.decayed ch) } :=
    State.Alike.evolves (.of_chans (s.decayed_like ch) rfl rfl)
  refine State.Evolves.alike (h1.tail (.removed (fun r => !r.fadesOn ch) ?_)) (.of_table ?_ ?_)
  · intro r hr hf
    have hw : r.state = .watch := by
      simp only [Record.fadesOn, Record.fades, Bool.not_eq_false', Bool.and_eq_true, decide_eq_true_eq] at hf
      exact hf.2.1.1.1
    exact ⟨r, hr, rfl, by rw [hw]; rfl⟩
  · rw [State.endPass_table, State.decay_table_eq]
  · refine State.like_of_others (State.endPass_onlyChannel s ch).2 ?_
    rw [State.endPass_chan]
    exact .of_eq rfl rfl

theorem State.comeTo_evolves (s : State) (ch : ChanId) (n : Nat) : s.Evolves (s.comeTo ch n) := by
  unfold State.comeTo
  split
  · exact (State.alike_modChan (.of_eq rfl rfl)).evolves
  · exact s.endPass_evolves ch

theorem State.endWait_evolves (s : State) (ch : ChanId) : s.Evolves (s.endWait ch) := by
  unfold State.endWait
  split
  · exact (State.alike_modChan (.of_eq rfl rfl)).evolves.trans (State.comeTo_evolves _ ch 0)
  · exact .refl

/-- A run of runs. -/
theorem State.evolves_foldl {f : State → ChanId → State} (hf : ∀ (t : State) (c : ChanId), t.Evolves (f t c))
    (l : List ChanId) (s : State) : s.Evolves (l.foldl f s) := by
  induction l generalizing s with
  | nil => exact .refl
  | cons c l ih => exact (hf s c).trans (ih _)

theorem State.slotStart_evolves (s : State) (slot : Nat) : s.Evolves (s.slotStart slot) := by
  rw [State.slotStart_eq]
  refine State.Evolves.trans ?_ (State.evolves_foldl State.endWait_evolves _ (s.slotOpened slot))
  refine .of_table rfl fun c => ?_
  rw [State.slotOpened, State.chan_modAllChans]
  exact .of_eq rfl rfl

theorem State.closeSlot_evolves (s : State) : s.Evolves s.closeSlot := by
  refine .of_table rfl fun c => ?_
  unfold State.closeSlot
  rw [State.chan_modAllChans]
  exact .of_eq rfl rfl

theorem State.frameStart_evolves (s : State) : s.Evolves s.frameStart := by
  unfold State.frameStart
  refine State.Evolves.trans ?_ (State.slotStart_evolves _ 0)
  exact .of_eq rfl rfl

/-- A frame that starts once items outside the table and the channels have been set. -/
theorem State.Evolves.frameStart {s u : State} (h : u.table = s.table) (hc : u.chans = s.chans) :
    s.Evolves u.frameStart := State.Evolves.trans (.of_eq h hc) u.frameStart_evolves

theorem State.endSlot_evolves (s : State) (slot : Nat) : s.Evolves (s.endSlot slot) := by
  unfold State.endSlot
  split
  · exact s.slotStart_evolves _
  · split
    · exact s.frameStart_evolves
    · exact s.closeSlot_evolves

theorem State.expire_evolves (s : State) : s.Evolves s.expire := by
  unfold State.expire
  refine State.Evolves.frame (t := State.frameStart _) ?_ (State.raise_table _ _) (State.raise_chans _ _)
  exact .frameStart rfl rfl

theorem State.beatFrame_evolves (s : State) : s.Evolves s.beatFrame := by
  unfold State.beatFrame
  exact .frameStart rfl rfl

theorem State.tick_evolves (s : State) : s.Evolves s.tick := by
  unfold State.tick
  split
  · exact .of_eq rfl rfl
  · split
    · exact s.expire_evolves
    · split
      · unfold State.endOpenSlot
        split
        · exact s.endSlot_evolves _
        · exact s.closeSlot_evolves
      · exact .of_eq rfl rfl

end Sys2Proof.Machine
end

section
/-! SUPPORT. The moves of the issues and of the commands of the link. -/

namespace Sys2Proof.Machine

/-! ### The issues of the arbiter -/

theorem Record.like_poison (r : Record) (x : CwSet) : r.Like { r with poison := x } := ⟨rfl, id, rfl, rfl, rfl, .inl rfl⟩

theorem Record.afterWrite_like (r : Record) (ch : ChanId) (full marked : CwSet) (locs : List Loc) :
    r.Like (r.afterWrite ch full marked locs) := by
  unfold Record.afterWrite
  split
  · exact r.like_poison _
  · exact .refl r

/-- The handover of written codewords leaves a migration's line, target and source (R155, R157). -/
theorem Migration.map_take_place (x : Option Migration) (n : Nat) (plan : Vector CwWrite 8) :
    (x.map (fun m => if m.line = n then m.take plan else m)).map Migration.place = x.map Migration.place := by
  cases x with
  | none => rfl
  | some m =>
    simp only [Option.map_some]
    split <;> rfl

theorem State.issueWrite_alike (s : State) (ch : ChanId) (line : Nat) (p : Probe) (plan : Vector CwWrite 8)
    (full : CwSet) : s.Alike (s.issueWrite ch line p plan full) := by
  obtain ⟨ho, -, ht, -, hc⟩ := State.issueWrite_spec s ch line p plan full _ rfl
  refine ⟨ht ▸ Record.forall₂_like_map (fun r => r.afterWrite_like ch _ _ _) s.table, State.like_of_others ho.2 ?_⟩
  rw [hc]
  refine ⟨fun _ => Iff.rfl, ?_⟩
  dsimp only
  split
  · exact Migration.map_take_place _ _ _
  · rfl

theorem State.poisonAt_onlyChannel (s : State) (ch : ChanId) (cws : CwSet) (loc : Loc) :
    s.OnlyChannel (s.poisonAt ch cws loc) ch ∧ (s.poisonAt ch cws loc).causes = s.causes :=
  ⟨(State.onlyChannel_modChan _ _ _).trans (State.onlyChannel_table _ _ _), rfl⟩

theorem State.poisonAll_onlyChannel (ch : ChanId) (cws : CwSet) (locs : List Loc) (s : State) :
    s.OnlyChannel (locs.foldl (fun t l => t.poisonAt ch cws l) s) ch ∧
      (locs.foldl (fun t l => t.poisonAt ch cws l) s).causes = s.causes := by
  induction locs generalizing s with
  | nil => exact ⟨.refl _ _, rfl⟩
  | cons l locs ih =>
    obtain ⟨h1, h2⟩ := s.poisonAt_onlyChannel ch cws l
    obtain ⟨k1, k2⟩ := ih (s.poisonAt ch cws l)
    exact ⟨h1.trans k1, k2.trans h2⟩

theorem State.issuePoison_onlyChannel (s : State) (ch : ChanId) (o : Owed) :
    s.OnlyChannel (s.issuePoison ch o) ch ∧ (s.issuePoison ch o).causes = s.causes := by
  unfold State.issuePoison
  dsimp only
  obtain ⟨h1, h2⟩ := State.poisonAll_onlyChannel ch o.cws (locations o.loc (s.poisonSecond ch o))
    (s.modChan ch (fun c => Channel.dropWrites { c.clearDemand with owed := c.owed.tail }
      (WbEntry.reached (locations o.loc (s.poisonSecond ch o)) o.cws)))
  split
  · exact ⟨((State.onlyChannel_modChan _ _ _).trans h1).trans (State.onlyChannel_modChan _ _ _), h2⟩
  · exact ⟨(State.onlyChannel_modChan _ _ _).trans h1, h2⟩

theorem State.issuePoison_alike (s : State) (ch : ChanId) (o : Owed) : s.Alike (s.issuePoison ch o) := by
  obtain ⟨ht, -, hc⟩ := State.issuePoison_spec s ch o _ rfl _ rfl
  refine ⟨ht ▸ Record.forall₂_like_map (fun r => ?_) s.table,
    State.like_of_others (s.issuePoison_onlyChannel ch o).1.2 ?_⟩
  · split
    · exact r.like_poison _
    · exact .refl r
  · rw [hc]
    refine ⟨fun _ => Iff.rfl, ?_⟩
    dsimp only
    split
    · exact Migration.map_take_place _ _ _
    · rfl

theorem State.issueWriteBack_alike (s : State) (ch : ChanId) (e : WbEntry) : s.Alike (s.issueWriteBack ch e) := by
  have hm : s.Alike (s.modChan ch (fun c =>
      Channel.reoffer (((c.clearDemand).writeLine e.loc (writeBackPlan e)).setWbq (c.wbq.erase e)))) :=
    State.alike_modChan (.of_eq rfl rfl)
  refine ⟨Record.forall₂_like_map (fun r => ?_) s.table, hm.2⟩
  split
  · exact r.like_poison _
  · exact .refl r

/-! ### Commands that answer a state -/

/-- An operation that needs its lines answers the state it leads to, or a fault. -/
theorem State.evolves_atLines {s u t : State} {ch : ChanId} {locs : List Loc} (h : s.atLines ch locs u = .next t)
    (hu : s.Evolves u) : s.Evolves t := by
  rw [(State.atLines_cases h).1]
  exact hu

theorem State.evolves_transact {s t : State} {f : State → State} (h : s.transact f = .next t) (hf : s.Evolves (f s)) :
    s.Evolves t := by
  unfold State.transact at h
  split at h
  · cases h; exact .of_eq rfl rfl
  · split at h
    · cases h; exact .of_eq rfl rfl
    · cases h; exact hf

/-- A good transaction leads where its command leads, and then makes its selections. -/
theorem State.evolves_answer {s t : State} {e : Nat} {code : Byte} {f : State → Reply}
    (h : s.answer e code f = .next t) (hf : s.Evolves (f s).state) : s.Evolves t :=
  State.evolves_transact h
    (State.Evolves.trans (hf.frame (u := (f s).respond s e code) rfl rfl) (State.selectAll_evolves _ _))

theorem State.evolves_linkError (s : State) (bits : Nat) (code : Byte) (r : Result) :
    s.Evolves (s.linkError bits code r) := by
  refine .of_eq ?_ ?_ <;> (unfold State.linkError State.linkFaultAt; dsimp only; split <;> rfl)

@[simp] theorem refuse_state (s : State) (r : Result) : (refuse s r).state = s := rfl
@[simp] theorem reply_state (s : State) (p : BitVec 160) : (reply s p).state = s := rfl
@[simp] theorem recordReply_state (s : State) (ch : ChanId) (n : Nat) (r : Result) (l : List ChanId) :
    (recordReply s ch n r l).state = s := rfl
@[simp] theorem channelReply_state (s : State) (ch : ChanId) (r : Result) : (channelReply s ch r).state = s := rfl
@[simp] theorem patrolReply_state (s : State) (ch : ChanId) (r : Result) : (patrolReply s ch r).state = s := rfl
@[simp] theorem storedReply_state (s : State) (id : Byte) (a b : Nat) : (storedReply s id a b).state = s := rfl

theorem withRecord_evolves {s : State} {ch : Byte} {line : BitVec 32} {f : ChanId → Record → Reply}
    (hf : ∀ (c : ChanId) (r : Record), s.rec? c line.toNat = some r → s.Evolves (f c r).state) :
    s.Evolves (withRecord s ch line f).state := by
  unfold withRecord
  split
  · exact .refl
  · split
    · exact .refl
    · next r hr => exact hf _ r hr

theorem onChannel_evolves {s : State} {ch : Byte} {f : ChanId → Reply} (hf : ∀ c : ChanId, s.Evolves (f c).state) :
    s.Evolves (onChannel s ch f).state := by
  unfold onChannel
  split
  · exact .refl
  · exact hf _

theorem onSlot_evolves {s : State} {ch : Byte} {slot : BitVec 16} {f : ChanId → SlotId → Reply}
    (hf : ∀ (c : ChanId) (i : SlotId), s.Evolves (f c i).state) : s.Evolves (onSlot s ch slot f).state := by
  unfold onSlot
  split
  · exact hf _ _
  · exact .refl

/-! ### The settings -/

/-- A slot that is not ALLOCATED and becomes another state that is not ALLOCATED leaves the ALLOCATED slots (R141). -/
theorem Channel.allocated_set_iff {v : Vector SlotState 512} {i : SlotId} {st : SlotState} (hi : v.get i ≠ .allocated)
    (hst : st ≠ .allocated) (j : SlotId) : (v.set i.val st).get j = .allocated ↔ v.get j = .allocated := by
  rw [Vector.get_eq_getElem, Vector.getElem_set]
  split
  · next h =>
    have hij : j = i := Fin.ext h.symm
    exact iff_of_false hst (hij ▸ hi)
  · rfl

theorem Channel.freeDefective_like (c : Channel) : c.Like c.freeDefective := by
  refine ⟨fun i => ?_, by unfold Channel.freeDefective; simp⟩
  unfold Channel.freeDefective
  simp only [Channel.dropWrites_slots, Vector.get_eq_getElem, Vector.getElem_map]
  split
  · next h => rw [h]; simp
  · rfl

theorem Channel.changePhysLines_like (c : Channel) (n : Nat) : c.Like (c.changePhysLines n) :=
  (Channel.freeDefective_like { c with wbq := [] })

theorem setPhysLinesReply_evolves (ch : ChanId) (v : BitVec 32) (s : State) :
    s.Evolves (setPhysLinesReply ch v s).state := by
  unfold setPhysLinesReply
  dsimp only
  split
  · exact .refl
  · split
    · exact .refl
    · exact State.Alike.evolves (State.alike_modChan (Channel.changePhysLines_like _ _))

theorem State.changeSource_evolves (s : State) (src : CadSource) : s.Evolves (s.changeSource src) := by
  unfold State.changeSource
  dsimp only
  split
  · exact .of_eq rfl rfl
  · split
    · exact .of_eq rfl rfl
    · split
      · exact .frameStart rfl rfl
      · exact .of_eq rfl rfl
  · exact .refl

theorem State.changeTimeout_evolves (s : State) (n : Nat) : s.Evolves (s.changeTimeout n) := by
  have h : s.Evolves (s.modSettings (fun c => { c with cadenceTimeout := n })) := .of_eq rfl rfl
  unfold State.changeTimeout
  dsimp only
  split
  · split
    · exact h.trans (State.expire_evolves _)
    · exact h
  · exact h

theorem State.changeFocus_evolves (s : State) (n : Nat) : s.Evolves (s.changeFocus n) := by
  unfold State.changeFocus
  dsimp only
  split
  · refine .of_table rfl fun c => ?_
    rw [State.chan_modAllChans]
    exact .of_eq rfl rfl
  · exact .of_eq rfl rfl

theorem setCadenceSourceReply_evolves (v : BitVec 32) (s : State) : s.Evolves (setCadenceSourceReply v s).state := by
  unfold setCadenceSourceReply
  split
  · exact .refl
  · exact s.changeSource_evolves _

theorem storeNumber_evolves (id : Byte) (lo hi : Nat) (set : Settings → Nat → Settings) (v : BitVec 32) (s : State) :
    s.Evolves (storeNumber id lo hi set v s).state := .of_eq rfl rfl

theorem setAlertMaskReply_evolves (v : BitVec 32) (s : State) : s.Evolves (setAlertMaskReply v s).state := .of_eq rfl rfl

theorem setFocusIntervalReply_evolves (v : BitVec 32) (s : State) : s.Evolves (setFocusIntervalReply v s).state :=
  s.changeFocus_evolves _

theorem setCadenceTimeoutReply_evolves (v : BitVec 32) (s : State) : s.Evolves (setCadenceTimeoutReply v s).state :=
  s.changeTimeout_evolves _

theorem setSettingReply_evolves (id : Byte) (v : BitVec 32) (s : State) : s.Evolves (setSettingReply id v s).state := by
  unfold setSettingReply
  cases settingOf id with
  | none => exact .refl
  | some k =>
    cases k with
    | physLines ch => exact setPhysLinesReply_evolves ch v s
    | focusInterval => exact setFocusIntervalReply_evolves v s
    | cadenceSource => exact setCadenceSourceReply_evolves v s
    | cadenceTimeout => exact setCadenceTimeoutReply_evolves v s
    | alertMask => exact setAlertMaskReply_evolves v s
    | _ => exact storeNumber_evolves _ _ _ _ v s

theorem State.abandonAll_evolves (s : State) : s.Evolves s.abandonAll := by
  unfold State.abandonAll
  refine State.Evolves.trans ?_ (State.evolves_foldl (fun t c => t.cancelMigration_evolves c false) _ _)
  exact State.Alike.evolves (State.alike_modAllChans fun c => .of_eq rfl rfl)

theorem State.restartCadence_evolves (s : State) : s.Evolves s.restartCadence := by
  unfold State.restartCadence
  exact .frameStart rfl rfl

theorem Channel.softReset_like (c : Channel) : c.Like c.softReset := .of_eq rfl rfl

theorem State.softReset_evolves (s : State) : s.Evolves s.softReset := by
  unfold State.softReset
  refine State.Evolves.frame (t := (s.abandonAll.modAllChans Channel.softReset).restartCadence) ?_ rfl rfl
  refine State.Evolves.trans (State.Evolves.alike s.abandonAll_evolves ?_) (State.restartCadence_evolves _)
  exact State.alike_modAllChans Channel.softReset_like

/-! ### The record commands -/

theorem nextReply_state (flag ch : Byte) (line : BitVec 32) (filter : Byte) (s : State) :
    (nextReply flag ch line filter s).state = s := by
  unfold nextReply
  split
  · split <;> rfl
  · rfl

theorem adoptReply_evolves (ch : Byte) (line : BitVec 32) (state : Byte) (slot : BitVec 16) (s : State) :
    s.Evolves (adoptReply ch line state slot s).state := by
  unfold adoptReply
  split
  case h_2 => exact .refl
  case h_1 c a _ _ =>
    split
    · exact .refl
    split
    · exact .refl
    next hnone =>
    split
    · exact .refl
    next hlen =>
    split
    · exact .refl
    next hfree =>
    have hfind : findRec s.table { channel := c, line := line.toNat } = none :=
      Option.not_isSome_iff_eq_none.mp hnone
    have hlt : s.table.length < tableCapacity := Nat.lt_of_not_le hlen
    have hroom : makeRoom s.table = some s.table := by rw [makeRoom, if_pos hlt]
    refine State.Moves.evolves ?_
    cases a with
    | watch => exact .created hfind hroom (newRecord_unspared _ _)
    | retired => exact .created hfind hroom ⟨by simp [Record.InRange, adopted, newRecord], .inr (.inr rfl), rfl, rfl, rfl⟩
    | spared i => exact .adopted hfind hlt (by simpa [Channel.adoptable] using hfree)

theorem changeUnlessRetired_evolves (ch : Byte) (line : BitVec 32) {f : Record → Record} (hf : ∀ r : Record, r.Like (f r))
    (selects : ChanId → Record → List ChanId) (s : State) :
    s.Evolves (changeUnlessRetired ch line f selects s).state := by
  refine withRecord_evolves fun c r _ => ?_
  split
  · exact .refl
  · exact State.Alike.evolves (State.alike_modRec hf)

/-- The cancel of a migration leaves a record of its key where there was one, in a state other than SPARING. -/
theorem findRec_updateRec_same {l : List Record} {k : Key} {f : Record → Record} (hf : ∀ x : Record, (f x).key = x.key) :
    findRec (updateRec l k f) k = (findRec l k).map f := by
  unfold findRec updateRec
  induction l with
  | nil => rfl
  | cons x xs ih =>
    rw [List.map_cons, List.find?_cons, List.find?_cons]
    by_cases h : x.key = k
    · simp [h, hf]
    · simp only [if_neg h, beq_false_of_ne h]
      exact ih

theorem findRec_updateRec_ne {l : List Record} {k j : Key} {f : Record → Record} (hf : ∀ x : Record, (f x).key = x.key)
    (h : j ≠ k) : findRec (updateRec l k f) j = findRec l j := by
  unfold findRec updateRec
  induction l with
  | nil => rfl
  | cons x xs ih =>
    rw [List.map_cons, List.find?_cons, List.find?_cons, ih]
    by_cases hx : x.key = k
    · have hj : (k == j) = false := beq_false_of_ne (Ne.symm h)
      simp [hx, hf, hj]
    · simp only [if_neg hx]

theorem Record.leaveSparing_key (b : Bool) (r : Record) : (r.leaveSparing b).key = r.key := rfl

theorem retireReply_evolves (ch : Byte) (line : BitVec 32) (s : State) : s.Evolves (retireReply ch line s).state := by
  refine withRecord_evolves fun c r hr => ?_
  split
  · exact .refl
  show s.Evolves (s.retire c line.toNat r)
  unfold State.retire State.retireCancel
  split
  · next hsparing =>
    refine (s.cancelMigration_evolves c true).tail ?_
    cases hm : (s.chan c).migration with
    | none =>
      have hs : s.cancelMigration c true = s := by unfold State.cancelMigration; rw [hm]
      rw [hs]
      exact .retired hr (.inr hm)
    | some m =>
      have hs : s.cancelMigration c true = s.unitFreed c m true .free := by
        unfold State.cancelMigration
        rw [hm]
        rfl
      rw [hs]
      by_cases hl : line.toNat = m.line
      · refine .retired (r := r.leaveSparing true) ?_ (.inr (s.unitFreed_migration c m true .free))
        have hf : findRec s.table { channel := c, line := m.line } = some r := hl ▸ hr
        rw [State.rec?, State.unitFreed_table, hl, findRec_updateRec_same (Record.leaveSparing_key true), hf]
        rfl
      · refine .retired (r := r) ?_ (.inr (s.unitFreed_migration c m true .free))
        rw [State.rec?, State.unitFreed_table, findRec_updateRec_ne (Record.leaveSparing_key true) (by simp [hl])]
        exact hr
  · next hsparing => exact (State.Moves.retired hr (.inl hsparing)).evolves

theorem releaseReply_evolves (ch : Byte) (line : BitVec 32) (s : State) : s.Evolves (releaseReply ch line s).state := by
  refine withRecord_evolves fun c r hr => ?_
  split
  · next hrel =>
    refine (State.Moves.removed (fun x => x.key != r.key) ?_).evolves
    intro x _ hx
    exact ⟨r, List.mem_of_find?_eq_some hr, by simpa using Eq.symm (by simpa using hx), hrel⟩
  · exact .refl

theorem spareReply_evolves (ch : Byte) (line : BitVec 32) (s : State) : s.Evolves (spareReply ch line s).state := by
  refine withRecord_evolves fun c r hr => ?_
  have hk : r.key = { channel := c, line := line.toNat } := by simpa using List.find?_some hr
  split
  · exact .refl
  next hst =>
  split
  · exact .refl
  next hidle =>
  split
  · exact .refl
  next i hi =>
  have hkc : r.key.channel = c := by rw [hk]
  refine (State.Moves.started true ?_ (List.mem_of_find?_eq_some hr) (by simpa using hst) ?_).evolves
  · rw [hkc]
    exact Option.not_isSome_iff_eq_none.mp hidle
  · rw [hkc]
    exact (Channel.lowestFree_eq_some.mp hi).1

theorem cancelReply_evolves (ch : Byte) (line : BitVec 32) (s : State) : s.Evolves (cancelReply ch line s).state := by
  refine withRecord_evolves fun c r _ => ?_
  split
  · exact s.cancelMigration_evolves c true
  · exact .refl

theorem spareRestoreReply_evolves (ch : Byte) (slot : BitVec 16) (s : State) :
    s.Evolves (spareRestoreReply ch slot s).state := by
  refine onSlot_evolves fun c i => ?_
  split
  · next hd =>
    refine State.Alike.evolves (State.alike_modChan ⟨fun j => ?_, by rw [Channel.setSlot_migration]⟩)
    rw [Channel.setSlot_slots]
    exact Channel.allocated_set_iff (by rw [hd]; decide) (by decide) j
  · exact .refl

/-! ### The other commands of the link -/

theorem regionSetReply_evolves (index enabled chans : Byte) (first last : BitVec 32) (cls : Byte) (s : State) :
    s.Evolves (regionSetReply index enabled chans first last cls s).state := by
  unfold regionSetReply
  split
  · unfold regionStore
    split
    · exact .refl
    · split
      · exact .refl
      · exact .of_eq rfl rfl
  · exact .refl

theorem classSetReply_evolves (cls : Byte) (tHot tSpare : BitVec 16) (auto wb : Byte) (s : State) :
    s.Evolves (classSetReply cls tHot tSpare auto wb s).state := by
  unfold classSetReply
  split
  · exact .of_eq rfl rfl
  · exact .refl

theorem channelFillReply_evolves (ch : Byte) (s : State) : s.Evolves (channelFillReply ch s).state := by
  refine onChannel_evolves fun c => ?_
  split
  · exact .refl
  · split
    · exact .refl
    · have hm : s.Alike (s.modChan c (fun d => { d.emptyWbq with state := .initializing, fillProgress := 0 })) :=
        State.alike_modChan (.of_eq rfl rfl)
      refine State.Alike.evolves ⟨Record.forall₂_like_map (fun r => ?_) s.table, hm.2⟩
      split
      · exact r.like_poison _
      · exact .refl r

theorem State.setChannel_evolves (s : State) (ch : ChanId) (st : ChannelState) : s.Evolves (s.setChannel ch st) :=
  State.Alike.evolves (State.alike_modChan (.of_eq rfl rfl))

theorem channelOnlineReply_evolves (ch : Byte) (s : State) : s.Evolves (channelOnlineReply ch s).state := by
  refine onChannel_evolves fun c => ?_
  split
  · exact .refl
  · split
    · exact .refl
    · exact s.setChannel_evolves c .online

theorem channelOfflineReply_evolves (ch : Byte) (s : State) : s.Evolves (channelOfflineReply ch s).state := by
  refine onChannel_evolves fun c => ?_
  split
  · exact .refl
  · exact s.setChannel_evolves c .disabled
  · split
    · exact s.setChannel_evolves c .disabled
    · exact .refl

theorem patrolStartReply_evolves (ch mode flag : Byte) (start : BitVec 32) (s : State) :
    s.Evolves (patrolStartReply ch mode flag start s).state := by
  unfold patrolStartReply
  split
  · split
    · exact .refl
    · split
      · exact .refl
      · split
        · exact .refl
        · exact (State.Alike.evolves (State.alike_modChan (.of_eq rfl rfl))).trans (State.comeTo_evolves _ _ _)
  · exact .refl

end Sys2Proof.Machine
end

section
/-! SUPPORT. Every command and every step is a run of moves, so an invariant that each move keeps is kept by every step. -/

namespace Sys2Proof.Machine

/-! ### Every command -/

/-- A change of one channel that the Spare Pool does not see. -/
theorem State.Evolves.modChan {s : State} {ch : ChanId} {f : Channel → Channel} (hs : (f (s.chan ch)).slots = (s.chan ch).slots)
    (hm : (f (s.chan ch)).migration.map Migration.place = (s.chan ch).migration.map Migration.place) :
    s.Evolves (s.modChan ch f) := State.Alike.evolves (State.alike_modChan ⟨fun i => by rw [hs], hm⟩)

section
variable {s t : State} {ch : ChanId}

theorem execRequestArrival_evolves {req : Request} (h : execRequestArrival ch req s = .next t) : s.Evolves t := by
  unfold execRequestArrival at h
  split at h
  · cases h; exact .refl
  · split at h
    · cases h; exact .of_eq rfl rfl
    · cases h; exact .modChan rfl rfl

theorem execResponseDeparture_evolves (h : execResponseDeparture ch s = .next t) : s.Evolves t := by
  unfold execResponseDeparture at h
  split at h
  · cases h; exact .refl
  · split at h
    · cases h; exact .refl
    · cases h; exact .modChan rfl rfl

theorem execDemandReadIssue_evolves (h : execDemandReadIssue ch s = .next t) : s.Evolves t := by
  unfold execDemandReadIssue at h
  split at h
  · exact State.evolves_atLines h (.modChan rfl rfl)
  · cases h; exact .refl

theorem execMergeReadIssue_evolves (h : execMergeReadIssue ch s = .next t) : s.Evolves t := by
  unfold execMergeReadIssue at h
  split at h
  · exact State.evolves_atLines h (.modChan rfl rfl)
  · cases h; exact .refl

theorem State.issueWrite_evolves (s : State) (ch : ChanId) (f g : Channel → Channel) (line : Nat) (p : Probe)
    (plan : Vector CwWrite 8) (full : CwSet) (hf : ∀ c : Channel, c.Like (f c)) (hg : ∀ c : Channel, c.Like (g c)) :
    s.Evolves (((s.modChan ch f).issueWrite ch line p plan full).modChan ch g) :=
  (State.Evolves.alike (State.Alike.evolves (State.alike_modChan (hf _)))
    (State.issueWrite_alike _ ch line p plan full)).alike (State.alike_modChan (hg _))

theorem execDemandWriteIssue_evolves (h : execDemandWriteIssue ch s = .next t) : s.Evolves t := by
  unfold execDemandWriteIssue at h
  split at h
  · split at h
    · refine State.evolves_atLines h (State.issueWrite_evolves _ _ _ _ _ _ _ _ ?_ ?_) <;>
        exact fun c => .of_eq rfl rfl
    · cases h; exact .refl
  · cases h; exact .refl

theorem execMergeWriteIssue_evolves (h : execMergeWriteIssue ch s = .next t) : s.Evolves t := by
  unfold execMergeWriteIssue at h
  split at h
  · split at h
    · refine State.evolves_atLines h (State.issueWrite_evolves _ _ _ _ _ _ _ _ ?_ ?_) <;>
        exact fun c => .of_eq rfl rfl
    · cases h; exact .refl
  · cases h; exact .refl

theorem execPoisonWriteIssue_evolves (h : execPoisonWriteIssue ch s = .next t) : s.Evolves t := by
  unfold execPoisonWriteIssue at h
  split at h
  · exact State.evolves_atLines h (s.issuePoison_alike ch _).evolves
  · cases h; exact .refl

theorem execWriteBackIssue_evolves (h : execWriteBackIssue ch s = .next t) : s.Evolves t := by
  unfold execWriteBackIssue at h
  split at h
  · exact State.evolves_atLines h (s.issueWriteBack_alike ch _).evolves
  · cases h; exact .refl

theorem execFillWriteIssue_evolves (h : execFillWriteIssue ch s = .next t) : s.Evolves t := by
  have hfill : s.Evolves (s.modChan ch Channel.fillStep) := .modChan rfl rfl
  unfold execFillWriteIssue at h
  split at h
  · refine State.evolves_atLines h ?_
    split
    · exact hfill.frame rfl rfl
    · exact hfill
  · cases h; exact .refl

theorem execCopyReadIssue_evolves (h : execCopyReadIssue ch s = .next t) : s.Evolves t := by
  unfold execCopyReadIssue at h
  split at h
  · next m _ hm => exact State.evolves_atLines h (.modChan rfl (by rw [hm]; rfl))
  · cases h; exact .refl

theorem execCopyWriteIssue_evolves (h : execCopyWriteIssue ch s = .next t) : s.Evolves t := by
  unfold execCopyWriteIssue at h
  split at h
  · next m _ hm => exact State.evolves_atLines h (.modChan rfl (by rw [hm]; rfl))
  · cases h; exact .refl

theorem execVerifyReadIssue_evolves (h : execVerifyReadIssue ch s = .next t) : s.Evolves t := by
  unfold execVerifyReadIssue at h
  split at h
  · next m _ hm => exact State.evolves_atLines h (.modChan rfl (by rw [hm]; rfl))
  · cases h; exact .refl

theorem Channel.issuePatrol_slots (c : Channel) (ch : ChanId) (k : PatrolKind) (n : Nat) (loc : Loc) :
    (c.issuePatrol ch k n loc).slots = c.slots := rfl

theorem Channel.issuePatrol_migration (c : Channel) (ch : ChanId) (k : PatrolKind) (n : Nat) (loc : Loc) :
    (c.issuePatrol ch k n loc).migration = c.migration := rfl

theorem State.issuePatrol_evolves (s : State) (ch : ChanId) (g : PatrolEngine → PatrolEngine) (k : PatrolKind) (n : Nat)
    (loc : Loc) : s.Evolves (s.modChan ch (fun c => (c.modPatrol g).issuePatrol ch k n loc)) :=
  .modChan (Channel.issuePatrol_slots _ _ _ _ _) (congrArg _ (Channel.issuePatrol_migration _ _ _ _ _))

theorem State.modPatrol_evolves (s : State) (ch : ChanId) (g : PatrolEngine → PatrolEngine) :
    s.Evolves (s.modChan ch (fun c => c.modPatrol g)) := .modChan rfl rfl

theorem State.ordinaryStep_evolves (h : s.ordinaryStep ch = .next t) : s.Evolves t := by
  unfold State.ordinaryStep at h
  split at h
  · exact State.evolves_atLines h (s.issuePatrol_evolves ch _ _ _ _)
  · cases h; exact s.endPass_evolves ch

theorem execPatrolIssueStep_evolves (h : execPatrolIssueStep ch s = .next t) : s.Evolves t := by
  unfold execPatrolIssueStep at h
  split at h
  · split at h
    · split at h
      · exact State.evolves_atLines h (s.issuePatrol_evolves ch _ _ _ _)
      · exact State.Evolves.trans (s.modPatrol_evolves ch _) (State.ordinaryStep_evolves h)
    · exact State.ordinaryStep_evolves h
  · cases h; exact .refl

theorem Channel.offerDemands_like (es : List WbEntry) (c : Channel) :
    (c.offerDemands es).slots = c.slots ∧ (c.offerDemands es).migration = c.migration := by
  unfold Channel.offerDemands
  induction es generalizing c with
  | nil => exact ⟨rfl, rfl⟩
  | cons e es ih => exact ih (c.offerDemand e)

theorem Channel.demandDecoded_like (c : Channel) (q : QEntry) (f : Flight) (wb : Bool) (reps : Vector Report 8) :
    c.Like (c.demandDecoded q f wb reps) := by
  unfold Channel.demandDecoded
  dsimp only
  split
  · exact .of_eq rfl rfl
  · obtain ⟨h1, h2⟩ := Channel.offerDemands_like (if wb then offersOf f.loc reps (fun _ => true) else [])
      (c.setStage q.seq (readStage reps))
    exact .of_eq (by rw [Channel.owe_slots, h1]; rfl) (by rw [Channel.owe_migration, h2]; rfl)

theorem State.demandDecode_evolves (s : State) (ch : ChanId) (q : QEntry) (f : Flight) (reps : Vector Report 8) :
    s.Evolves (s.demandDecode ch q f reps) := by
  unfold State.demandDecode
  dsimp only
  refine State.Evolves.trans ?_ (State.deliver_evolves _ _ _ _ _)
  refine State.Evolves.alike ?_ (State.alike_modChan (Channel.demandDecoded_like (Channel.popFlight _) _ _ _ _))
  have hcap := (s.captureRead_alike ch .demandRead q.req.line f.loc (some q.req.tag) reps).evolves
  split
  · exact hcap.frame rfl rfl
  · exact hcap

theorem execDemandReadDecode_evolves {u : LineWords} (h : execDemandReadDecode ch u s = .next t) : s.Evolves t := by
  unfold execDemandReadDecode at h
  split at h
  · split at h
    · split at h
      · cases h; exact s.demandDecode_evolves ch _ _ _
      · cases h; exact .refl
    · cases h; exact .refl
  · cases h; exact .refl

theorem State.mergeDecode_evolves (s : State) (ch : ChanId) (q : QEntry) (p : Probe) (data : LineData)
    (mask : BitVec 64) (f : Flight) (reps : Vector Report 8) : s.Evolves (s.mergeDecode ch q p data mask f reps) := by
  rw [State.mergeDecode_eq]
  exact s.decode_evolves ch .demandMerge _ _ _ reps (State.alike_modChan (.of_eq rfl rfl))

theorem execMergeReadDecode_evolves {u : LineWords} (h : execMergeReadDecode ch u s = .next t) : s.Evolves t := by
  unfold execMergeReadDecode at h
  split at h
  · split at h
    · split at h
      · split at h
        · cases h; exact s.mergeDecode_evolves ch _ _ _ _ _ _
        · cases h; exact .refl
      · cases h; exact .refl
    · cases h; exact .refl
  · cases h; exact .refl

theorem execCopyReadDecode_evolves {u : LineWords} (h : execCopyReadDecode ch u s = .next t) : s.Evolves t := by
  unfold execCopyReadDecode at h
  split at h
  · split at h
    · next m _ hm => cases h; exact State.copyDecode_evolves hm _ _
    · cases h; exact s.migrationReports_evolves ch _ _
    · cases h; exact .refl
  · cases h; exact .refl

theorem execVerifyReadDecode_evolves {u : LineWords} (h : execVerifyReadDecode ch u s = .next t) : s.Evolves t := by
  unfold execVerifyReadDecode at h
  split at h
  · split at h
    · next m _ hm => cases h; exact State.verifyDecode_evolves hm _ _
    · cases h; exact s.migrationReports_evolves ch _ _
    · cases h; exact .refl
  · cases h; exact .refl

theorem Channel.patrolDecoded_like (c : Channel) (r : PatrolRead) (f : Flight) (b : Bool) (reps : Vector Report 8) :
    c.Like (c.patrolDecoded r f b reps) := by
  unfold Channel.patrolDecoded
  exact .of_eq (by rw [Channel.owe_slots]; rfl) (by rw [Channel.owe_migration]; rfl)

theorem execPatrolReadDecode_evolves {u : LineWords} (h : execPatrolReadDecode ch u s = .next t) : s.Evolves t := by
  unfold execPatrolReadDecode at h
  split at h
  · split at h
    · cases h
      exact s.decode_evolves ch _ _ _ _ _ (State.alike_modChan (Channel.patrolDecoded_like (Channel.popFlight _) _ _ _ _))
    · cases h; exact .refl
  · cases h; exact .refl

theorem State.haltFinish_evolves (s : State) (ch : ChanId) : s.Evolves (s.haltFinish ch) := by
  unfold State.haltFinish
  split
  · exact s.modPatrol_evolves ch _
  · exact s.endPass_evolves ch

theorem execPatrolReadFinish_evolves (h : execPatrolReadFinish ch s = .next t) : s.Evolves t := by
  have h1 : s.Evolves (s.modChan ch (fun c => c.modPatrol (fun p => { p with current := none }))) :=
    s.modPatrol_evolves ch _
  unfold execPatrolReadFinish at h
  split at h
  · cases h; exact .refl
  split at h
  case isFalse => cases h; exact .refl
  dsimp only at h
  split at h
  · exact Host.Outcome.next.inj h ▸ h1.trans (State.comeTo_evolves _ _ _)
  · cases h; exact h1
  · split at h
    · cases h; exact h1.trans (State.modPatrol_evolves _ ch _)
    · exact Host.Outcome.next.inj h ▸ h1.trans (State.haltFinish_evolves _ ch)
  · cases h; exact h1.trans (State.modPatrol_evolves _ ch _)

theorem State.passTo_evolves (s : State) (n : Nat) : s.Evolves (s.passTo n) := .of_eq rfl rfl

theorem execSlotEnd_evolves (h : execSlotEnd s = .next t) : s.Evolves t := by
  unfold execSlotEnd at h
  split at h
  · split at h
    · cases h; exact .refl
    · cases h; exact (s.passTo_evolves _).trans (State.endSlot_evolves _ _)
  · cases h; exact .refl

theorem execWatchdogExpiry_evolves (h : execWatchdogExpiry s = .next t) : s.Evolves t := by
  unfold execWatchdogExpiry at h
  split at h
  · split at h
    · cases h; exact .refl
    · cases h; exact (s.passTo_evolves _).trans (State.expire_evolves _)
  · cases h; exact .refl

theorem execBeat_evolves (h : execBeat s = .next t) : s.Evolves t := by
  unfold execBeat at h
  split at h
  · cases h; exact .refl
  · split at h
    · cases h; exact s.beatFrame_evolves
    · cases h; exact s.beatFrame_evolves
    · cases h; exact .refl

/-- After the power-on reset every slot is FREE and every Migration Unit is idle (R140, R146). -/
theorem State.powerOn_chan (drams : Vector (List (Nat × Codeword)) 4) (n : Nat) (l : List Instr) (c : ChanId) :
    (State.powerOn drams n l).chan c = Channel.powerOn (drams.get c) 8 := by
  show (drams.map _)[c.val] = _
  rw [Vector.getElem_map]
  rfl

theorem Channel.powerOn_emptied (d : List (Nat × Codeword)) (n : Nat) :
    (Channel.powerOn d n).migration = none ∧ ∀ i : SlotId, (Channel.powerOn d n).slots.get i ≠ .allocated := by
  refine ⟨rfl, fun i => ?_⟩
  simp [Channel.powerOn, Vector.get_eq_getElem]

theorem State.powerOn_moves (s : State) (drams : Vector (List (Nat × Codeword)) 4) (n : Nat) (l : List Instr) :
    s.Moves (State.powerOn drams n l) :=
  .emptied rfl fun c => by rw [State.powerOn_chan]; exact Channel.powerOn_emptied _ _

theorem execResetAssert_evolves (h : execResetAssert s = .next t) : s.Evolves t := by
  cases h
  exact (State.Evolves.trans (s.powerOn_moves _ _ _).evolves (State.closeSlot_evolves _)).frame rfl rfl

theorem execResetEnd_evolves {b : Bool} (h : execResetEnd b s = .next t) : s.Evolves t := by
  unfold execResetEnd at h
  split at h
  · cases h; exact State.Evolves.frame (t := s.powerOnAgain) (s.powerOn_moves _ _ _).evolves rfl rfl
  · cases h; exact .refl

end

/-- Every command is a run of moves. -/
theorem exec_evolves {i : Instr} {s t : State} (h : exec i s = .next t) : s.Evolves t := by
  cases i with
  | requestArrival => exact execRequestArrival_evolves h
  | responseDeparture => exact execResponseDeparture_evolves h
  | demandReadIssue => exact execDemandReadIssue_evolves h
  | demandWriteIssue => exact execDemandWriteIssue_evolves h
  | mergeReadIssue => exact execMergeReadIssue_evolves h
  | mergeReadDecode => exact execMergeReadDecode_evolves h
  | mergeWriteIssue => exact execMergeWriteIssue_evolves h
  | poisonWriteIssue => exact execPoisonWriteIssue_evolves h
  | writeBackIssue => exact execWriteBackIssue_evolves h
  | fillWriteIssue => exact execFillWriteIssue_evolves h
  | copyReadIssue => exact execCopyReadIssue_evolves h
  | copyReadDecode => exact execCopyReadDecode_evolves h
  | copyWriteIssue => exact execCopyWriteIssue_evolves h
  | verifyReadIssue => exact execVerifyReadIssue_evolves h
  | verifyReadDecode => exact execVerifyReadDecode_evolves h
  | patrolIssueStep => exact execPatrolIssueStep_evolves h
  | patrolReadDecode => exact execPatrolReadDecode_evolves h
  | patrolReadFinish => exact execPatrolReadFinish_evolves h
  | demandReadDecode => exact execDemandReadDecode_evolves h
  | slotEnd => exact execSlotEnd_evolves h
  | beat => exact execBeat_evolves h
  | watchdogExpiry => exact execWatchdogExpiry_evolves h
  | resetAssert => exact execResetAssert_evolves h
  | resetEnd => exact execResetEnd_evolves h
  | linkShort n => exact State.evolves_transact (f := fun t => t.linkError n 0x00 .short) h (s.evolves_linkError _ _ _)
  | linkCheckError e code =>
    exact State.evolves_transact (f := fun t => t.linkError (192 + e) code .checkError) h (s.evolves_linkError _ _ _)
  | unknown e code => exact State.evolves_answer (f := fun t => refuse t .unknown) h .refl
  | nop => exact State.evolves_answer (f := fun t => reply t 0) h .refl
  | status e page =>
    refine State.evolves_answer h ?_
    unfold statusReply
    split
    · exact .refl
    · split <;> exact .refl
  | getSetting e id =>
    refine State.evolves_answer h ?_
    unfold getSettingReply
    cases settingOf id <;> exact .refl
  | setSetting e id v => exact State.evolves_answer h (setSettingReply_evolves id v s)
  | setPhysLines e ch v => exact State.evolves_answer h (setPhysLinesReply_evolves ch v s)
  | setCadenceSource e v => exact State.evolves_answer h (setCadenceSourceReply_evolves v s)
  | setCadenceTimeout e v => exact State.evolves_answer h (setCadenceTimeoutReply_evolves v s)
  | setFocusInterval e v => exact State.evolves_answer h (setFocusIntervalReply_evolves v s)
  | setAlertMask e v => exact State.evolves_answer h (setAlertMaskReply_evolves v s)
  | softReset => exact State.evolves_answer h s.softReset_evolves
  | lookup => exact State.evolves_answer h (withRecord_evolves fun _ _ _ => .refl)
  | next => exact State.evolves_answer h (by rw [nextReply_state])
  | adopt e ch line st slot => exact State.evolves_answer h (adoptReply_evolves ch line st slot s)
  | pin e ch line =>
    exact State.evolves_answer h (changeUnlessRetired_evolves ch line (f := fun r => { r with pinned := true })
      (fun r => ⟨rfl, id, rfl, rfl, rfl, .inl rfl⟩) _ s)
  | unpin e ch line =>
    exact State.evolves_answer h (changeUnlessRetired_evolves ch line (f := fun r => { r with pinned := false })
      (fun r => ⟨rfl, id, rfl, rfl, rfl, .inl rfl⟩) _ s)
  | retire e ch line => exact State.evolves_answer h (retireReply_evolves ch line s)
  | release e ch line => exact State.evolves_answer h (releaseReply_evolves ch line s)
  | clearHold e ch line =>
    exact State.evolves_answer h (changeUnlessRetired_evolves ch line (f := fun r => { r with hold := false })
      (fun r => ⟨rfl, id, rfl, rfl, rfl, .inl rfl⟩) _ s)
  | spare e ch line => exact State.evolves_answer h (spareReply_evolves ch line s)
  | cancel e ch line => exact State.evolves_answer h (cancelReply_evolves ch line s)
  | spareQuery e ch =>
    exact State.evolves_answer (f := fun t => onChannel t ch (fun c => reply t (spareQueryReadout (t.chan c)))) h
      (onChannel_evolves fun _ => .refl)
  | spareSlot e ch slot =>
    exact State.evolves_answer (f := fun t => onSlot t ch slot (fun c i =>
      reply t (spareSlotReadout ((t.chan c).slots.get i) (slotOwner t.table c i)))) h (onSlot_evolves fun _ _ => .refl)
  | spareRestore e ch slot => exact State.evolves_answer h (spareRestoreReply_evolves ch slot s)
  | regionSet => exact State.evolves_answer h (regionSetReply_evolves _ _ _ _ _ _ s)
  | regionGet =>
    refine State.evolves_answer h ?_
    unfold regionGetReply
    split <;> exact .refl
  | classSet => exact State.evolves_answer h (classSetReply_evolves _ _ _ _ _ s)
  | classGet =>
    refine State.evolves_answer h ?_
    unfold classGetReply
    split <;> exact .refl
  | channelFill e ch => exact State.evolves_answer h (channelFillReply_evolves ch s)
  | channelOnline e ch => exact State.evolves_answer h (channelOnlineReply_evolves ch s)
  | channelOffline e ch => exact State.evolves_answer h (channelOfflineReply_evolves ch s)
  | patrolStart => exact State.evolves_answer h (patrolStartReply_evolves _ _ _ _ s)
  | patrolHalt e ch =>
    exact State.evolves_answer (f := fun t => onChannel t ch (fun c =>
      patrolReply (t.modChan c (fun d => d.modPatrol PatrolEngine.halt)) c .ok)) h
      (onChannel_evolves fun c => by rw [patrolReply_state]; exact .modChan rfl rfl)
  | setPhase =>
    refine State.evolves_answer h ?_
    unfold setPhaseReply
    split
    · exact .of_eq rfl rfl
    · exact .refl
  | profileSet =>
    refine State.evolves_answer h ?_
    unfold profileSetReply
    split
    · exact .of_eq rfl rfl
    · exact .refl
  | profileGet =>
    refine State.evolves_answer h ?_
    unfold profileGetReply
    split <;> exact .refl
  | captureRead e ch =>
    exact State.evolves_answer (f := fun t => onChannel t ch (fun c => reply t (captureReadout c (t.chan c).capture))) h
      (onChannel_evolves fun _ => .refl)
  | captureClear e ch =>
    exact State.evolves_answer (f := fun t => onChannel t ch (fun c =>
      reply (t.modChan c (fun d => { d with capture := none })) (captureReadout c (t.chan c).capture))) h
      (onChannel_evolves fun c => by rw [reply_state]; exact .modChan rfl rfl)
  | countsRead e ch =>
    exact State.evolves_answer (f := fun t => onChannel t ch (fun c => reply t (countsReadout (t.chan c)))) h
      (onChannel_evolves fun _ => .refl)
  | countsClear e ch =>
    exact State.evolves_answer (f := fun t => onChannel t ch (fun c =>
      reply (t.modChan c (fun d => { d with ceCount := 0, ueCount := 0 })) (countsReadout (t.chan c)))) h
      (onChannel_evolves fun c => by rw [reply_state]; exact .modChan rfl rfl)
  | alertRead e => exact State.evolves_answer (f := fun t => reply t (alertReadout t)) h .refl
  | alertAck =>
    refine State.evolves_answer h ?_
    unfold alertAckReply
    split
    · exact .of_eq rfl rfl
    · exact .refl

/-- Every step is a run of moves. -/
theorem step_evolves {s t : State} (h : step s = .next t) : s.Evolves t := by
  unfold step at h
  split at h
  · next c rest _ => exact State.Evolves.trans (.of_eq (t := { s with pending := rest }) rfl rfl) (exec_evolves h)
  · cases h; exact s.tick_evolves

/-- An invariant that every move keeps is kept by every step. -/
theorem keptByStep_of_moves {inv : State → Prop} (h : ∀ s t : State, s.Moves t → inv s → inv t) : KeptByStep inv := by
  intro s t hs hst
  have he := step_evolves hst
  clear hst
  induction he with
  | refl => exact hs
  | tail _ hm ih => exact h _ _ hm ih

end Sys2Proof.Machine
end

section
/-! SUPPORT. Every move keeps the table in key order, at most 1,024 records long and every number in its range. -/

namespace Sys2Proof.Machine

/-- What TableSound says, of a list of records (R15, R17, R53). -/
def TableList (l : List Record) : Prop :=
  l.Pairwise (fun a b => Key.lt a.key b.key = true) ∧ l.length ≤ 1024 ∧ ∀ r ∈ l, r.InRange

theorem State.tableSound_iff {s : State} : s.TableSound ↔ TableList s.table := Iff.rfl

theorem Key.lt_or_lt {a b : Key} (h : a ≠ b) (h' : Key.lt a b = false) : Key.lt b a = true := by
  obtain ⟨ca, la⟩ := a
  obtain ⟨cb, lb⟩ := b
  simp only [Key.lt, Bool.or_eq_false_iff, Bool.and_eq_false_iff, decide_eq_false_iff_not, Bool.or_eq_true,
    Bool.and_eq_true, decide_eq_true_eq, ne_eq, Key.mk.injEq, Fin.lt_def, Fin.ext_iff] at *
  omega

theorem Key.lt_trans {a b c : Key} (h : Key.lt a b = true) (k : Key.lt b c = true) : Key.lt a c = true := by
  simp only [Key.lt, Bool.or_eq_true, Bool.and_eq_true, decide_eq_true_eq, Fin.lt_def, Fin.ext_iff] at *
  omega

section
variable {l m : List Record}

theorem TableList.keys_unique (h : TableList l) {a b : Record} (ha : a ∈ l) (hb : b ∈ l) (hk : a.key = b.key) : a = b :=
  State.TableSound.unique (s := { State.reset with table := l }) h ha hb hk

/-- Records changed one by one, their keys kept, stay in key order. -/
theorem TableList.forall₂ (h : TableList l) (hm : List.Forall₂ (fun r q => q.key = r.key ∧ (r.InRange → q.InRange)) l m) :
    TableList m := by
  obtain ⟨hp, hl, hr⟩ := h
  refine ⟨?_, hm.length_eq ▸ hl, ?_⟩
  · have hkeys : m.map (fun r => r.key) = l.map (fun r => r.key) := by
      clear hp hl hr
      induction hm with
      | nil => rfl
      | cons h _ ih => rw [List.map_cons, List.map_cons, ih, h.1]
    have hpl : (l.map (fun r => r.key)).Pairwise (fun a b => Key.lt a b = true) := List.pairwise_map.mpr hp
    rw [← hkeys] at hpl
    exact List.pairwise_map.mp hpl
  · clear hp hl
    induction hm with
    | nil => exact fun _ h => absurd h List.not_mem_nil
    | cons h _ ih =>
      intro r hr'
      rcases List.mem_cons.mp hr' with rfl | hr'
      · exact h.2 (hr _ List.mem_cons_self)
      · exact ih (fun x hx => hr x (List.mem_cons_of_mem _ hx)) r hr'

theorem TableList.updateRec (h : TableList l) {k : Key} {f : Record → Record}
    (hf : ∀ x ∈ l, x.key = k → (f x).key = k ∧ (x.InRange → (f x).InRange)) : TableList (updateRec l k f) := by
  refine h.forall₂ ?_
  unfold Machine.updateRec
  rw [List.forall₂_map_right_iff]
  refine List.forall₂_same.mpr fun x hx => ?_
  split
  · next hk => exact hk ▸ hf x hx hk
  · exact ⟨rfl, id⟩

theorem TableList.filter (h : TableList l) (p : Record → Bool) : TableList (l.filter p) :=
  ⟨h.1.filter p, (List.length_filter_le p l).trans h.2.1, fun r hr => h.2.2 r (List.mem_of_mem_filter hr)⟩

theorem insertRec_pairwise {r : Record} (h : l.Pairwise (fun a b => Key.lt a.key b.key = true))
    (hr : ∀ x ∈ l, x.key ≠ r.key) : (insertRec l r).Pairwise (fun a b => Key.lt a.key b.key = true) := by
  induction l with
  | nil => simp [insertRec]
  | cons x xs ih =>
    obtain ⟨hx, hxs⟩ := List.pairwise_cons.mp h
    unfold insertRec
    split
    · next hlt =>
      refine List.pairwise_cons.mpr ⟨fun y hy => ?_, h⟩
      rcases List.mem_cons.mp hy with rfl | hy
      · exact hlt
      · exact Key.lt_trans hlt (hx y hy)
    · next hge =>
      refine List.pairwise_cons.mpr ⟨fun y hy => ?_, ih hxs fun y hy => hr y (List.mem_cons_of_mem _ hy)⟩
      rcases mem_insertRec.mp hy with rfl | hy
      · exact Key.lt_or_lt (Ne.symm (hr x List.mem_cons_self)) (by simpa using hge)
      · exact hx y hy

theorem insertRec_length (l : List Record) (r : Record) : (insertRec l r).length = l.length + 1 := by
  induction l with
  | nil => rfl
  | cons x xs ih =>
    unfold insertRec
    split
    · rfl
    · rw [List.length_cons, List.length_cons, ih]

theorem TableList.insertRec (h : TableList l) {r : Record} (hl : l.length < 1024) (hr : ∀ x ∈ l, x.key ≠ r.key)
    (hi : r.InRange) : TableList (insertRec l r) := by
  refine ⟨insertRec_pairwise h.1 hr, by rw [insertRec_length]; omega, fun x hx => ?_⟩
  rcases mem_insertRec.mp hx with rfl | hx
  · exact hi
  · exact h.2.2 x hx

theorem findRec_none {k : Key} (h : findRec l k = none) {x : Record} (hx : x ∈ l) : x.key ≠ k := by
  have := List.find?_eq_none.mp h x hx
  simpa using this

theorem findRec_some {k : Key} {r : Record} (h : findRec l k = some r) : r ∈ l ∧ r.key = k :=
  ⟨List.mem_of_find?_eq_some h, by simpa using List.find?_some h⟩

/-- Room for one more record. -/
theorem makeRoom_length (hl : l.length ≤ 1024) (h : makeRoom l = some m) : m.length < 1024 := by
  unfold makeRoom at h
  split at h
  · next hlt => cases h; exact hlt
  · obtain ⟨v, hv, rfl⟩ := Option.map_eq_some_iff.mp h
    have hmem := List.mem_of_mem_filter (firstBy_mem hv)
    have hlt : (eraseRec l v.key).length < l.length :=
      List.length_filter_lt_length_iff_exists.mpr ⟨v, hmem, by simp⟩
    omega

theorem makeRoom_eq_filter (h : makeRoom l = some m) : ∃ p : Record → Bool, m = l.filter p ∧
    ∀ r ∈ l, p r = false → ∃ v ∈ l, v.key = r.key ∧ v.evictable = true := by
  rcases makeRoom_spec h with rfl | ⟨v, hv, hev, rfl⟩
  · exact ⟨fun _ => true, List.filter_true m |>.symm, fun _ _ h => by cases h⟩
  · exact ⟨fun r => r.key != v.key, rfl, fun r _ hr => ⟨v, hv, Eq.symm (by simpa using hr), hev⟩⟩

end

theorem State.retireSlot_table (s : State) (ch : ChanId) (n : Nat) : (s.retireSlot ch n).table = s.table := by
  unfold State.retireSlot
  split <;> rfl

theorem State.committed_table (s : State) (ch : ChanId) (m : Migration) :
    (s.committed ch m).table = updateRec s.table { channel := ch, line := m.line } Record.commit := by
  unfold State.committed
  dsimp only
  split <;> rfl

/-- Every move keeps the table sound. -/
theorem State.Moves.tableSound {s t : State} (h : s.Moves t) (hs : s.TableSound) : t.TableSound := by
  rw [State.tableSound_iff] at *
  cases h with
  | alike h => exact hs.forall₂ (h.1.imp fun _ _ h => ⟨h.key, h.inRange⟩)
  | rescored hr hq =>
    obtain ⟨hmem, hk⟩ := findRec_some hr
    exact hs.updateRec fun x _ _ => ⟨hq.key.trans hk, fun _ => hq.inRange (hs.2.2 _ hmem)⟩
  | removed p _ => exact hs.filter p
  | created hnone hroom hr =>
    obtain ⟨p, rfl, -⟩ := makeRoom_eq_filter hroom
    exact (hs.filter p).insertRec (makeRoom_length hs.2.1 hroom)
      (fun x hx => findRec_none hnone (List.mem_of_mem_filter hx)) hr.1
  | adopted hnone hlen _ =>
    exact TableList.insertRec hs hlen (fun x hx => findRec_none hnone hx) (by simp [Record.InRange, Machine.adopted, newRecord])
  | retired _ _ =>
    show TableList (updateRec (State.retireSlot _ _ _).table _ _)
    rw [State.retireSlot_table]
    exact hs.updateRec fun x _ hx => ⟨hx, id⟩
  | started => exact hs.updateRec fun x _ hx => ⟨hx, id⟩
  | ended => exact hs.updateRec fun x _ hx => ⟨hx, id⟩
  | retried => exact hs.updateRec fun x _ hx => ⟨hx, id⟩
  | committed =>
    rw [State.committed_table]
    exact hs.updateRec fun x _ hx => ⟨hx, fun ⟨_, _, ha⟩ => ⟨Nat.zero_le _, Nat.zero_le _, ha⟩⟩
  | emptied ht _ =>
    rw [ht]
    exact ⟨.nil, Nat.zero_le _, fun _ h => absurd h List.not_mem_nil⟩

/-- Settles O56: every step is a run of moves, and each move keeps the table sound. -/
theorem stepsKeepTableSound : Obligations.StepsKeepTableSound := keptByStep_of_moves fun _ _ => State.Moves.tableSound

end Sys2Proof.Machine
end

section
/-! SUPPORT. Every move keeps the records, the Spare Pool and the Migration Units in agreement: what the agreement says of one
channel, and what becomes of it when the record of one key changes. -/

namespace Sys2Proof.Machine

/-! ### The agreement of one channel with the table -/

/-- The records of a channel agree with its ALLOCATED slots A and with the line, target and source p of its migration (R16,
R29). -/
structure Agreement (A : SlotId → Prop) (p : Option (Nat × SlotId × Loc)) (ch : ChanId) (l : List Record) : Prop where
  named  : ∀ i, A i ↔ ∃ r ∈ l, r.key.channel = ch ∧ r.names i
  unique : ∀ a ∈ l, ∀ b ∈ l, a.key.channel = ch → b.key.channel = ch → ∀ i, a.names i → b.names i → a.key = b.key
  busy   : ∀ r ∈ l, r.key.channel = ch → (r.state = .sparing ↔ p.map Prod.fst = some r.key.line)
  worked : ∀ n i src, p = some (n, i, src) →
    ∃ r ∈ l, r.key = { channel := ch, line := n } ∧ r.targetSlot = some i ∧ src = r.location

/-- A record has the fields of its state and names no slot in both (R16). -/
def Record.Whole (r : Record) : Prop := r.Shaped ∧ ∀ i, ¬ (r.spareSlot = some i ∧ r.targetSlot = some i)

/-- The ALLOCATED slots of a channel. -/
def Channel.Taken (c : Channel) (i : SlotId) : Prop := c.slots.get i = .allocated

/-- The agreement of a channel of a state. -/
def State.AgreesAt (s : State) (ch : ChanId) : Prop :=
  Agreement (s.chan ch).Taken ((s.chan ch).migration.map Migration.place) ch s.table

theorem Migration.map_place_line (x : Option Migration) :
    (x.map Migration.place).map Prod.fst = x.map (fun m => m.line) := by
  cases x <;> rfl

theorem State.slotsUnique_iff {s : State} (hs : s.TableSound) :
    s.table.Pairwise (fun a b => a.key.channel = b.key.channel → ∀ i, ¬ (a.names i ∧ b.names i)) ↔
      ∀ ch : ChanId, ∀ a ∈ s.table, ∀ b ∈ s.table, a.key.channel = ch → b.key.channel = ch →
        ∀ i, a.names i → b.names i → a.key = b.key := by
  constructor
  · intro h ch a ha b hb hac hbc i hai hbi
    by_contra hne
    have hsym : Std.Symm (fun a b : Record => a.key.channel = b.key.channel → ∀ i, ¬ (a.names i ∧ b.names i)) :=
      ⟨fun x y hxy hc j hj => hxy hc.symm j hj.symm⟩
    exact h.forall ha hb (fun e => hne (e ▸ rfl)) (hac.trans hbc.symm) i ⟨hai, hbi⟩
  · intro h
    refine hs.1.imp_of_mem fun {a b} ha hb hlt hc i hi => ?_
    have hk := h _ a ha b hb rfl hc.symm i hi.1 hi.2
    rw [hk] at hlt
    simp [Key.lt] at hlt

/-- The invariant, record by record and channel by channel. -/
theorem State.sparingSound_iff {s : State} :
    s.SparingSound ↔ s.TableSound ∧ (∀ r ∈ s.table, r.Whole) ∧ ∀ ch, s.AgreesAt ch := by
  constructor
  · rintro ⟨ht, hshape, hnamed, ⟨huniq, hboth⟩, hmig⟩
    refine ⟨ht, fun r hr => ⟨hshape r hr, hboth r hr⟩, fun ch => ⟨hnamed ch, (s.slotsUnique_iff ht).mp huniq ch, ?_, ?_⟩⟩
    · rw [Migration.map_place_line]
      exact (hmig ch).1
    · intro n i src h
      obtain ⟨m, hm, hp⟩ := Option.map_eq_some_iff.mp h
      cases hp
      exact (hmig ch).2 m hm
  · rintro ⟨ht, hwhole, h⟩
    refine ⟨ht, fun r hr => (hwhole r hr).1, fun ch => (h ch).named,
      ⟨(s.slotsUnique_iff ht).mpr fun ch => (h ch).unique, fun r hr => (hwhole r hr).2⟩, fun ch => ⟨?_, fun m hm => ?_⟩⟩
    · rw [← Migration.map_place_line]
      exact (h ch).busy
    · exact (h ch).worked m.line m.target m.source (by rw [hm]; rfl)

/-! ### Changes that keep the agreement of a channel -/

section
variable {r q : Record}

theorem Record.Like.names (h : r.Like q) : q.names = r.names := by
  funext i
  rw [Record.names, Record.names, h.spareSlot, h.targetSlot]

theorem Record.Like.sparing_iff (h : r.Like q) : q.state = .sparing ↔ r.state = .sparing := by
  rcases h.state with e | ⟨e | e, e' | e'⟩ <;> simp [e] <;> simp [e']

theorem Record.Like.location (h : r.Like q) : q.location = r.location := by
  unfold Record.location
  rcases h.state with e | ⟨e | e, e' | e'⟩
  · rw [e, h.spareSlot, h.key]
  all_goals rw [e, e', h.key]

theorem Record.Like.whole (h : r.Like q) (hr : r.Whole) : q.Whole := by
  obtain ⟨hs, hb⟩ := hr
  refine ⟨?_, by rw [h.spareSlot, h.targetSlot]; exact hb⟩
  unfold Record.Shaped at *
  rw [h.spareSlot, h.targetSlot, h.priorState]
  rcases h.state with e | ⟨e | e, e' | e'⟩
  · rwa [e]
  all_goals rw [e] at hs; rw [e']; exact hs

end

section
variable {A A' : SlotId → Prop} {p p' : Option (Nat × SlotId × Loc)} {ch : ChanId} {l l' : List Record}

theorem Agreement.of_like (h : Agreement A p ch l) (hl : List.Forall₂ Record.Like l l') : Agreement A p ch l' := by
  have hto : ∀ r ∈ l, ∃ q ∈ l', r.Like q := fun r hr => by
    obtain ⟨i, hi, rfl⟩ := List.getElem_of_mem hr
    exact ⟨l'[i]'(hl.length_eq ▸ hi), List.getElem_mem _, hl.get hi (hl.length_eq ▸ hi)⟩
  have hof : ∀ q ∈ l', ∃ r ∈ l, r.Like q := fun q hq => by
    obtain ⟨i, hi, rfl⟩ := List.getElem_of_mem hq
    exact ⟨l[i]'(hl.length_eq ▸ hi), List.getElem_mem _, hl.get (hl.length_eq ▸ hi) hi⟩
  constructor
  · intro i
    rw [h.named]
    constructor
    · rintro ⟨r, hr, hc, hn⟩
      obtain ⟨q, hq, hlike⟩ := hto r hr
      exact ⟨q, hq, hlike.key ▸ hc, hlike.names ▸ hn⟩
    · rintro ⟨q, hq, hc, hn⟩
      obtain ⟨r, hr, hlike⟩ := hof q hq
      exact ⟨r, hr, hlike.key ▸ hc, hlike.names ▸ hn⟩
  · intro a ha b hb hac hbc i hai hbi
    obtain ⟨a', ha', hla⟩ := hof a ha
    obtain ⟨b', hb', hlb⟩ := hof b hb
    rw [hla.key, hlb.key] at *
    rw [hla.names] at hai
    rw [hlb.names] at hbi
    exact h.unique a' ha' b' hb' hac hbc i hai hbi
  · intro q hq hc
    obtain ⟨r, hr, hlike⟩ := hof q hq
    rw [hlike.sparing_iff, hlike.key]
    exact h.busy r hr (hlike.key ▸ hc)
  · intro n i src hp
    obtain ⟨r, hr, hk, ht, hsrc⟩ := h.worked n i src hp
    obtain ⟨q, hq, hlike⟩ := hto r hr
    exact ⟨q, hq, hlike.key.trans hk, hlike.targetSlot.trans ht, hsrc.trans hlike.location.symm⟩

/-- Records that name no slot and that no migration works on may come and go. -/
theorem Agreement.of_bare (h : Agreement A p ch l) (hl : ∀ a ∈ l', ∀ b ∈ l', a.key = b.key → a = b)
    (hbare : ∀ x, (x ∈ l ↔ x ∈ l') ∨ (∀ i, ¬ x.names i) ∧ x.state ≠ .sparing) : Agreement A p ch l' := by
  have hin : ∀ {x i}, x.names i → (x ∈ l ↔ x ∈ l') := fun {x i} hn => (hbare x).resolve_right fun hb => hb.1 i hn
  have hworked : ∀ n i src, p = some (n, i, src) →
      ∃ r ∈ l', r.key = { channel := ch, line := n } ∧ r.targetSlot = some i ∧ src = r.location := by
    intro n i src hp
    obtain ⟨r, hr, hk, ht, hsrc⟩ := h.worked n i src hp
    exact ⟨r, (hin (.inr ht)).mp hr, hk, ht, hsrc⟩
  refine ⟨fun i => ?_, fun a ha b hb hac hbc i hai hbi => ?_, fun r hr hc => ?_, hworked⟩
  · rw [h.named]
    constructor <;> rintro ⟨r, hr, hc, hn⟩
    · exact ⟨r, (hin hn).mp hr, hc, hn⟩
    · exact ⟨r, (hin hn).mpr hr, hc, hn⟩
  · exact h.unique a ((hin hai).mpr ha) b ((hin hbi).mpr hb) hac hbc i hai hbi
  · rcases hbare r with hm | ⟨hno, hns⟩
    · exact h.busy r (hm.mpr hr) hc
    · refine iff_of_false hns fun hp => ?_
      obtain ⟨⟨n, i, src⟩, hp', hn⟩ := Option.map_eq_some_iff.mp hp
      obtain ⟨q, hq, hk, ht, -⟩ := hworked n i src hp'
      have hqr : q.key = r.key := by rw [hk, ← hc]; exact Key.mk.injEq .. ▸ ⟨rfl, hn⟩
      exact hno i (hl q hq r hr hqr ▸ .inr ht)

/-- What happens to the records of other channels does not matter. -/
theorem Agreement.of_others (h : Agreement A p ch l) (hl : ∀ x : Record, x.key.channel = ch → (x ∈ l ↔ x ∈ l')) :
    Agreement A p ch l' := by
  refine ⟨fun i => ?_, fun a ha b hb hac hbc => h.unique a ((hl a hac).mpr ha) b ((hl b hbc).mpr hb) hac hbc,
    fun r hr hc => h.busy r ((hl r hc).mpr hr) hc, fun n i src hp => ?_⟩
  · rw [h.named]
    constructor <;> rintro ⟨r, hr, hc, hn⟩
    · exact ⟨r, (hl r hc).mp hr, hc, hn⟩
    · exact ⟨r, (hl r hc).mpr hr, hc, hn⟩
  · obtain ⟨r, hr, hk, hrest⟩ := h.worked n i src hp
    exact ⟨r, (hl r (by rw [hk])).mp hr, hk, hrest⟩

/-- The record of one key becomes q: the slots that the key's record named and q does not are given back, those that q names
are taken, and the migration is of that key, or stays as it is, of another. -/
theorem Agreement.replace (h : Agreement A p ch l) {k : Key} {q : Record} (hk : k.channel = ch) (hq : q.key = k)
    (hl : ∀ x, x ∈ l' ↔ (x ∈ l ∧ x.key ≠ k) ∨ x = q)
    (hA : ∀ i, A' i ↔ q.names i ∨ (A i ∧ ¬ ∃ r ∈ l, r.key = k ∧ r.names i))
    (hnew : ∀ i, q.names i → A i → ∃ r ∈ l, r.key = k ∧ r.names i)
    (hbusy : q.state = .sparing ↔ p'.map Prod.fst = some k.line)
    (hline : ∀ n, n ≠ k.line → (p'.map Prod.fst = some n ↔ p.map Prod.fst = some n))
    (hworked : ∀ n i src, p' = some (n, i, src) →
      (n = k.line ∧ q.targetSlot = some i ∧ src = q.location) ∨ (n ≠ k.line ∧ p = some (n, i, src))) :
    Agreement A' p' ch l' := by
  have hqc : q.key.channel = ch := hq ▸ hk
  have hfresh : ∀ x ∈ l, x.key ≠ k → x.key.channel = ch → ∀ i, x.names i → ¬ q.names i := by
    intro x hx hxk hxc i hxi hqi
    obtain ⟨r, hr, hrk, hri⟩ := hnew i hqi ((h.named i).mpr ⟨x, hx, hxc, hxi⟩)
    exact hxk ((h.unique x hx r hr hxc (hrk ▸ hk) i hxi hri).trans hrk)
  constructor
  · intro i
    rw [hA]
    constructor
    · rintro (hqi | ⟨hai, hno⟩)
      · exact ⟨q, (hl q).mpr (.inr rfl), hqc, hqi⟩
      · obtain ⟨r, hr, hc, hn⟩ := (h.named i).mp hai
        exact ⟨r, (hl r).mpr (.inl ⟨hr, fun e => hno ⟨r, hr, e, hn⟩⟩), hc, hn⟩
    · rintro ⟨x, hx, hc, hn⟩
      rcases (hl x).mp hx with ⟨hxl, hxk⟩ | rfl
      · refine .inr ⟨(h.named i).mpr ⟨x, hxl, hc, hn⟩, ?_⟩
        rintro ⟨r, hr, hrk, hri⟩
        exact hxk ((h.unique x hxl r hr hc (hrk ▸ hk) i hn hri).trans hrk)
      · exact .inl hn
  · intro a ha b hb hac hbc i hai hbi
    rcases (hl a).mp ha with ⟨hal, hak⟩ | rfl <;> rcases (hl b).mp hb with ⟨hbl, hbk⟩ | rfl
    · exact h.unique a hal b hbl hac hbc i hai hbi
    · exact absurd hbi (hfresh a hal hak hac i hai)
    · exact absurd hai (hfresh b hbl hbk hbc i hbi)
    · rfl
  · intro x hx hc
    rcases (hl x).mp hx with ⟨hxl, hxk⟩ | rfl
    · have hn : x.key.line ≠ k.line := fun e => hxk (by
        obtain ⟨⟨xc, xn⟩⟩ := x
        obtain ⟨kc, kn⟩ := k
        simp_all)
      rw [hline _ hn]
      exact h.busy x hxl hc
    · rw [hbusy, hq]
  · intro n i src hp
    rcases hworked n i src hp with ⟨rfl, ht, hsrc⟩ | ⟨hn, hp'⟩
    · exact ⟨q, (hl q).mpr (.inr rfl), by rw [hq, ← hk], ht, hsrc⟩
    · obtain ⟨r, hr, hrk, hrest⟩ := h.worked n i src hp'
      exact ⟨r, (hl r).mpr (.inl ⟨hr, fun e => hn (by rw [← e, hrk])⟩), hrk, hrest⟩

end

end Sys2Proof.Machine
end

section
/-! SUPPORT. Every move keeps the records, the Spare Pool and the Migration Units in agreement. -/

namespace Sys2Proof.Machine

/-! ### The record of one key changes -/

/-- The migration of a channel after a change of the record of k into q: of that record exactly while it is SPARING, and of
another only as before. -/
structure Refits (p p' : Option (Nat × SlotId × Loc)) (k : Key) (q : Record) : Prop where
  busy   : q.state = .sparing ↔ p'.map Prod.fst = some k.line
  others : ∀ n, n ≠ k.line → (p'.map Prod.fst = some n ↔ p.map Prod.fst = some n)
  worked : ∀ n i src, p' = some (n, i, src) →
    (n = k.line ∧ q.targetSlot = some i ∧ src = q.location) ∨ (n ≠ k.line ∧ p = some (n, i, src))

section
variable {p : Option (Nat × SlotId × Loc)} {k : Key} {q : Record}

theorem Refits.ended (hq : q.state ≠ .sparing) (hp : ∀ n, p.map Prod.fst = some n → n = k.line) : Refits p none k q :=
  ⟨iff_of_false hq nofun, fun n hn => iff_of_false nofun fun h => hn (hp n h), nofun⟩

theorem Refits.works {i : SlotId} {src : Loc} (hq : q.state = .sparing) (ht : q.targetSlot = some i)
    (hsrc : src = q.location) (hp : ∀ n, p.map Prod.fst = some n → n = k.line) :
    Refits p (some (k.line, i, src)) k q := by
  refine ⟨iff_of_true hq rfl, fun n hn => iff_of_false (fun h => hn (Option.some.inj h).symm) fun h => hn (hp n h), ?_⟩
  intro n j src' h
  cases h
  exact .inl ⟨rfl, ht, hsrc⟩

theorem Refits.same (hq : q.state ≠ .sparing) (hp : p.map Prod.fst ≠ some k.line) : Refits p p k q :=
  ⟨iff_of_false hq hp, fun _ _ => Iff.rfl, fun n i src h => .inr ⟨fun e => hp (by rw [h, ← e]; rfl), h⟩⟩

end

theorem State.TableSound.rec_eq {s : State} (hs : s.TableSound) {k : Key} {r x : Record} (hr : r ∈ s.table)
    (hrk : r.key = k) : x ∈ s.table ∧ x.key = k ↔ x = r :=
  ⟨fun ⟨hx, hxk⟩ => hs.unique hx hr (hxk.trans hrk.symm), fun e => e ▸ ⟨hr, hrk⟩⟩

theorem mem_updateRec_iff {s : State} (hs : s.TableSound) {k : Key} {r : Record} (hr : r ∈ s.table) (hrk : r.key = k)
    (f : Record → Record) (x : Record) : x ∈ updateRec s.table k f ↔ (x ∈ s.table ∧ x.key ≠ k) ∨ x = f r := by
  unfold updateRec
  rw [List.mem_map]
  constructor
  · rintro ⟨y, hy, rfl⟩
    split
    · next hk => exact .inr (by rw [(hs.rec_eq hr hrk).mp ⟨hy, hk⟩])
    · next hk => exact .inl ⟨hy, hk⟩
  · rintro (⟨hx, hk⟩ | rfl)
    · exact ⟨x, hx, if_neg hk⟩
    · exact ⟨r, hr, if_pos hrk⟩

/-- The record of a key, if it has one, becomes q, and the slots and the migration of its channel follow. -/
theorem State.SparingSound.replace {s t : State} {k : Key} {q : Record} (hs : s.SparingSound) (ht : t.TableSound)
    (hq : q.key = k) (hw : q.Whole) (hmem : ∀ x, x ∈ t.table ↔ (x ∈ s.table ∧ x.key ≠ k) ∨ x = q)
    (hothers : ∀ c, c ≠ k.channel → t.chan c = s.chan c)
    (hA : ∀ i, (t.chan k.channel).Taken i ↔
      q.names i ∨ ((s.chan k.channel).Taken i ∧ ¬ ∃ r ∈ s.table, r.key = k ∧ r.names i))
    (hnew : ∀ i, q.names i → (s.chan k.channel).Taken i → ∃ r ∈ s.table, r.key = k ∧ r.names i)
    (hp : Refits ((s.chan k.channel).migration.map Migration.place) ((t.chan k.channel).migration.map Migration.place)
      k q) : t.SparingSound := by
  obtain ⟨hst, hwhole, hag⟩ := State.sparingSound_iff.mp hs
  refine State.sparingSound_iff.mpr ⟨ht, fun x hx => ?_, fun c => ?_⟩
  · rcases (hmem x).mp hx with ⟨hx, -⟩ | rfl
    · exact hwhole x hx
    · exact hw
  · by_cases hc : c = k.channel
    · subst hc
      exact (hag k.channel).replace rfl hq hmem hA hnew hp.busy hp.others hp.worked
    · unfold State.AgreesAt
      rw [hothers c hc]
      refine (hag c).of_others fun x hxc => ?_
      have hne : x.key ≠ k := fun e => hc (by rw [← hxc, e])
      rw [hmem]
      exact ⟨fun hx => .inl ⟨hx, hne⟩, fun h => h.elim (·.1) fun e => absurd (e ▸ hq) hne⟩

/-- The record r of a key becomes f r, and the slots and the migration of its channel follow. -/
theorem State.SparingSound.update {s t : State} {k : Key} {r : Record} {f : Record → Record} (hs : s.SparingSound)
    (ht : t.TableSound) (hr : r ∈ s.table) (hrk : r.key = k) (htab : t.table = updateRec s.table k f)
    (hf : (f r).key = k) (hw : (f r).Whole) (hothers : ∀ c, c ≠ k.channel → t.chan c = s.chan c)
    (hA : ∀ i, (t.chan k.channel).Taken i ↔ (f r).names i ∨ ((s.chan k.channel).Taken i ∧ ¬ r.names i))
    (hnew : ∀ i, (f r).names i → (s.chan k.channel).Taken i → r.names i)
    (hp : Refits ((s.chan k.channel).migration.map Migration.place) ((t.chan k.channel).migration.map Migration.place)
      k (f r)) : t.SparingSound := by
  have hst := (State.sparingSound_iff.mp hs).1
  have hold : ∀ i, (∃ x ∈ s.table, x.key = k ∧ x.names i) ↔ r.names i := fun i =>
    ⟨fun ⟨_, hx, hxk, hn⟩ => (hst.rec_eq hr hrk).mp ⟨hx, hxk⟩ ▸ hn, fun hn => ⟨r, hr, hrk, hn⟩⟩
  refine hs.replace ht hf hw (fun x => htab ▸ mem_updateRec_iff hst hr hrk f x) hothers ?_ ?_ hp
  · simpa only [hold] using hA
  · simpa only [hold] using hnew

/-! ### What a slot's state says of the records -/

section
variable {s : State}

theorem State.SparingSound.taken_of_names (hs : s.SparingSound) {r : Record} (hr : r ∈ s.table) {i : SlotId}
    (hn : r.names i) : (s.chan r.key.channel).Taken i :=
  ((State.sparingSound_iff.mp hs).2.2 r.key.channel).named i |>.mpr ⟨r, hr, rfl, hn⟩

theorem State.SparingSound.not_names_of_free (hs : s.SparingSound) {r : Record} (hr : r ∈ s.table) {i : SlotId}
    (hi : (s.chan r.key.channel).slots.get i = .free) : ¬ r.names i := fun hn =>
  absurd ((hs.taken_of_names hr hn).symm.trans hi) (by decide)

/-- The record of a standing migration (R29, R146). -/
theorem State.SparingSound.record_of_migration (hs : s.SparingSound) {ch : ChanId} {m : Migration}
    (hm : (s.chan ch).migration = some m) : ∃ r ∈ s.table, r.key = { channel := ch, line := m.line } ∧
      r.targetSlot = some m.target ∧ m.source = r.location ∧ r.state = .sparing := by
  have hag := (State.sparingSound_iff.mp hs).2.2 ch
  obtain ⟨r, hr, hk, ht, hsrc⟩ := hag.worked m.line m.target m.source (by rw [hm]; rfl)
  exact ⟨r, hr, hk, ht, hsrc, (hag.busy r hr (by rw [hk])).mpr (by rw [hm, hk]; rfl)⟩

theorem State.SparingSound.idle_of (hs : s.SparingSound) {r : Record} (hr : r ∈ s.table) :
    r.state = .sparing ↔ ((s.chan r.key.channel).migration.map Migration.place).map Prod.fst = some r.key.line :=
  ((State.sparingSound_iff.mp hs).2.2 r.key.channel).busy r hr rfl

end

theorem SlotState.get_set (v : Vector SlotState 512) (i j : SlotId) (st : SlotState) :
    (v.set i.val st).get j = if j = i then st else v.get j := by
  rw [Vector.get_eq_getElem, Vector.getElem_set]
  by_cases h : j = i
  · rw [if_pos h, if_pos (by rw [h])]
  · rw [if_neg h, if_neg fun e => h (Fin.ext e.symm)]
    rfl

theorem Channel.taken_set {c d : Channel} {i : SlotId} {st : SlotState} (h : d.slots = c.slots.set i.val st)
    (hst : st ≠ .allocated) (j : SlotId) : d.Taken j ↔ c.Taken j ∧ j ≠ i := by
  unfold Channel.Taken
  rw [h, SlotState.get_set]
  split
  · next e => exact iff_of_false hst fun h => h.2 e
  · next e => exact ⟨fun h => ⟨h, e⟩, And.left⟩

theorem Channel.taken_allocate {c d : Channel} {i : SlotId} (h : d.slots = c.slots.set i.val .allocated) (j : SlotId) :
    d.Taken j ↔ j = i ∨ c.Taken j := by
  unfold Channel.Taken
  rw [h, SlotState.get_set]
  split
  · next e => exact iff_of_true rfl (.inl e)
  · next e => exact ⟨.inr, fun h => h.resolve_left e⟩

/-! ### The fields of a record in its state (R16) -/

section
variable {r : Record}

theorem Record.Whole.sparing (h : r.Whole) (hs : r.state = .sparing) :
    r.targetSlot.isSome = true ∧ r.priorState.isSome = true ∧
      (r.spareSlot.isSome = true ↔ r.priorState = some .spared) := by
  have := h.1
  unfold Record.Shaped at this
  rwa [hs] at this

theorem Record.Whole.not_sparing (h : r.Whole) (hs : r.state ≠ .sparing) : r.targetSlot = none ∧ r.priorState = none ∧
    (r.spareSlot.isSome = true ↔ r.state = .spared) := by
  have := h.1
  unfold Record.Shaped at this
  cases hst : r.state <;> rw [hst] at this <;> simp_all

theorem Record.retire_whole (r : Record) : r.retire.Whole := ⟨⟨rfl, rfl, rfl⟩, nofun⟩

theorem Record.Whole.leaveSparing (h : r.Whole) (hs : r.state = .sparing) (b : Bool) : (r.leaveSparing b).Whole := by
  obtain ⟨-, hp, hspare⟩ := h.sparing hs
  refine ⟨?_, nofun⟩
  unfold Record.Shaped Record.leaveSparing
  obtain ⟨p, hp⟩ := Option.isSome_iff_exists.mp hp
  rw [hp] at hspare ⊢
  cases p with
  | hot => exact ⟨by simpa using hspare, rfl, rfl⟩
  | spared => exact ⟨hspare.mpr rfl, rfl, rfl⟩

theorem Record.Whole.enterSparing (h : r.Whole) (hs : r.state ≠ .sparing) {i : SlotId} (hi : r.spareSlot ≠ some i)
    (b : Bool) : (r.enterSparing i b).Whole := by
  obtain ⟨-, -, hspare⟩ := h.not_sparing hs
  refine ⟨⟨rfl, rfl, ?_⟩, ?_⟩
  · show r.spareSlot.isSome = true ↔ some (if r.state = .spared then PriorState.spared else .hot) = some .spared
    rw [hspare]
    split <;> simp_all
  · rintro j ⟨hj, ht⟩
    exact hi (hj.trans ht.symm)

theorem Record.Whole.commit (h : r.Whole) (hs : r.state = .sparing) : r.commit.Whole :=
  ⟨⟨(h.sparing hs).1, rfl, rfl⟩, nofun⟩

theorem Record.enterSparing_location (h : r.Whole) (hs : r.state.sparable = true) (i : SlotId) (b : Bool) :
    (r.enterSparing i b).location = r.location := by
  obtain ⟨-, -, hspare⟩ := h.not_sparing (by intro e; rw [e] at hs; cases hs)
  unfold Record.location Record.enterSparing
  cases hst : r.state <;> cases hsp : r.spareSlot <;> simp_all

theorem Record.location_of_sparing (hs : r.state = .sparing) :
    r.location = match r.spareSlot with
      | some i => .slot i
      | none => .line r.key.line := by
  unfold Record.location
  rw [hs]
  cases r.spareSlot <;> rfl

theorem Record.names_leaveSparing (b : Bool) (i : SlotId) : (r.leaveSparing b).names i ↔ r.spareSlot = some i := by
  simp [Record.names, Record.leaveSparing]

theorem Record.names_enterSparing (ht : r.targetSlot = none) (i j : SlotId) (b : Bool) :
    (r.enterSparing i b).names j ↔ r.names j ∨ j = i := by
  simp [Record.names, Record.enterSparing, ht, eq_comm]

end

/-! ### The moves -/

section
variable {s t : State}

/-- The channel of a key, on which a migration is of no other line while it is of that key's record. -/
theorem State.migration_line {ch : ChanId} {m : Migration} (hm : (s.chan ch).migration = some m) (n : Nat)
    (h : ((s.chan ch).migration.map Migration.place).map Prod.fst = some n) : n = m.line := by
  rw [hm] at h
  exact (Option.some.inj h).symm

theorem State.SparingSound.of_alike (hs : s.SparingSound) (ht : t.TableSound) (h : s.Alike t) : t.SparingSound := by
  obtain ⟨hst, hwhole, hag⟩ := State.sparingSound_iff.mp hs
  refine State.sparingSound_iff.mpr ⟨ht, fun q hq => ?_, fun c => ?_⟩
  · obtain ⟨i, hi, rfl⟩ := List.getElem_of_mem hq
    exact (h.1.get (h.1.length_eq ▸ hi) hi).whole (hwhole _ (List.getElem_mem _))
  · obtain ⟨hslots, hmig⟩ := h.2 c
    have hA : (t.chan c).Taken = (s.chan c).Taken := funext fun i => propext (hslots i)
    unfold State.AgreesAt
    rw [hA, hmig]
    exact (hag c).of_like h.1

/-- Records that name no slot and that no migration works on come and go, the channels as they are. -/
theorem State.SparingSound.of_bare (hs : s.SparingSound) {l : List Record}
    (ht : TableList l) (hw : ∀ x ∈ l, x ∉ s.table → x.Unspared)
    (hbare : ∀ x, (x ∈ s.table ↔ x ∈ l) ∨ (∀ i, ¬ x.names i) ∧ x.state ≠ .sparing) :
    State.SparingSound { s with table := l } := by
  obtain ⟨hst, hwhole, hag⟩ := State.sparingSound_iff.mp hs
  refine State.sparingSound_iff.mpr ⟨ht, fun x hx => ?_, fun c =>
    (hag c).of_bare (fun a ha b hb => ht.keys_unique ha hb) hbare⟩
  by_cases hxs : x ∈ s.table
  · exact hwhole x hxs
  · obtain ⟨-, hst, h1, h2, h3⟩ := hw x hx hxs
    refine ⟨?_, fun i h => by rw [h1] at h; cases h.1⟩
    unfold Record.Shaped
    rcases hst with e | e | e <;> (rw [e]; exact ⟨h1, h2, h3⟩)

theorem Record.Unspared.bare {r : Record} (h : r.Unspared) : (∀ i, ¬ r.names i) ∧ r.state ≠ .sparing := by
  obtain ⟨-, hst, h1, h2, -⟩ := h
  refine ⟨fun i hn => ?_, by rcases hst with e | e | e <;> (rw [e]; decide)⟩
  rw [Record.names, h1, h2] at hn
  rcases hn with h | h <;> cases h

theorem Record.Whole.bare {r : Record} (h : r.Whole) (hs : r.state.releasable = true) :
    (∀ i, ¬ r.names i) ∧ r.state ≠ .sparing := by
  have hns : r.state ≠ .sparing := by intro e; rw [e] at hs; cases hs
  have hnd : r.state ≠ .spared := by intro e; rw [e] at hs; cases hs
  obtain ⟨h1, -, h2⟩ := h.not_sparing hns
  refine ⟨fun i hn => ?_, hns⟩
  rcases hn with hn | hn
  · exact hnd (h2.mp (by rw [hn]; rfl))
  · rw [h1] at hn; cases hn

theorem State.SparingSound.removed (hs : s.SparingSound) (p : Record → Bool)
    (hp : ∀ r ∈ s.table, p r = false → ∃ q ∈ s.table, q.key = r.key ∧ q.state.releasable = true) :
    State.SparingSound { s with table := s.table.filter p } := by
  obtain ⟨hst, hwhole, -⟩ := State.sparingSound_iff.mp hs
  refine hs.of_bare (TableList.filter hst p) (fun x hx hxs => absurd (List.mem_of_mem_filter hx) hxs) fun x => ?_
  by_cases hx : x ∈ s.table
  · cases hpx : p x with
    | true => exact .inl (iff_of_true hx (List.mem_filter.mpr ⟨hx, hpx⟩))
    | false =>
      obtain ⟨q, hq, hk, hrel⟩ := hp x hx hpx
      rw [hst.unique hq hx hk] at hrel
      exact .inr ((hwhole x hx).bare hrel)
  · exact .inl (iff_of_false hx fun h => hx (List.mem_of_mem_filter h))

theorem State.SparingSound.created (hs : s.SparingSound) {l : List Record} {r : Record}
    (hroom : makeRoom s.table = some l) (hr : r.Unspared)
    (ht : TableList (insertRec l r)) : State.SparingSound { s with table := insertRec l r } := by
  obtain ⟨p, rfl, hp⟩ := makeRoom_eq_filter hroom
  have hs' : State.SparingSound { s with table := s.table.filter p } := hs.removed p fun x hx hpx => by
    obtain ⟨v, hv, hk, hev⟩ := hp x hx hpx
    refine ⟨v, hv, hk, ?_⟩
    simp only [Record.evictable, Bool.and_eq_true, decide_eq_true_eq] at hev
    rw [hev.1.1]
    rfl
  refine State.SparingSound.of_bare hs' ht (fun x hx hxs => ?_) fun x => ?_
  · exact (mem_insertRec.mp hx).resolve_right hxs ▸ hr
  · by_cases hx : x = r
    · exact .inr (hx ▸ hr.bare)
    · exact .inl ⟨fun h => mem_insertRec.mpr (.inr h), fun h => (mem_insertRec.mp h).resolve_left hx⟩

theorem State.SparingSound.adopted (hs : s.SparingSound) {k : Key} {i : SlotId} (hnone : findRec s.table k = none)
    (hfree : (s.chan k.channel).slots.get i = .free) (ht : (s.adopt k (.spared i)).TableSound) :
    (s.adopt k (.spared i)).SparingSound := by
  have hno : ∀ j, ¬ ∃ r ∈ s.table, r.key = k ∧ r.names j := fun j ⟨r, hr, hk, _⟩ => findRec_none hnone hr hk
  have hnames : ∀ j, (Machine.adopted k (.spared i)).names j ↔ j = i := fun j => by
    simp [Record.names, Machine.adopted, newRecord, eq_comm]
  have hchan : (s.adopt k (.spared i)).chan k.channel = (s.chan k.channel).setSlot i .allocated :=
    State.chan_modChan_same _ _ _
  have hidle : ((s.chan k.channel).migration.map Migration.place).map Prod.fst ≠ some k.line := fun h => by
    obtain ⟨⟨n, j, src⟩, hp, rfl⟩ := Option.map_eq_some_iff.mp h
    obtain ⟨r, hr, hrk, -⟩ := ((State.sparingSound_iff.mp hs).2.2 k.channel).worked _ j src hp
    exact findRec_none hnone hr hrk
  refine hs.replace (k := k) (q := Machine.adopted k (.spared i)) ht rfl ⟨⟨rfl, rfl, rfl⟩, nofun⟩ (fun x => ?_)
    (fun c hc => State.chan_modChan_of_ne _ _ _ _ hc) (fun j => ?_) (fun j hj htaken => ?_) ?_
  · show x ∈ insertRec s.table _ ↔ _
    rw [mem_insertRec]
    exact ⟨fun h => h.elim .inr fun h => .inl ⟨h, findRec_none hnone h⟩, fun h => h.elim (fun h => .inr h.1) .inl⟩
  · rw [hchan, Channel.taken_allocate (Channel.setSlot_slots _ _ _), hnames, and_iff_left (hno j)]
  · rw [(hnames j).mp hj] at htaken
    exact absurd (htaken.symm.trans hfree) (by decide)
  · rw [hchan, Channel.setSlot_migration]
    exact .same (fun h => by cases h) hidle

end

end Sys2Proof.Machine
end

section
/-! SUPPORT. The moves of a migration keep the agreement, and with them every step does. -/

namespace Sys2Proof.Machine

section
variable {s : State} {ch : ChanId} {m : Migration}

theorem State.retireSlot_migration (s : State) (ch : ChanId) (n : Nat) :
    ((s.retireSlot ch n).chan ch).migration = (s.chan ch).migration := by
  unfold State.retireSlot
  split
  · rw [State.chan_modChan_same, Channel.setSlot_migration]
  · rfl

theorem Record.leaveSparing_state (r : Record) (b : Bool) : (r.leaveSparing b).state ≠ .sparing := by
  unfold Record.leaveSparing
  cases r.priorState.getD .hot <;> simp [PriorState.toState]

/-- RETIRE of a record that no migration works on frees the slot the record names (R34, R44). -/
theorem State.SparingSound.retired (hs : s.SparingSound) {n : Nat} {r : Record} (hr : s.rec? ch n = some r)
    (hst : r.state ≠ .sparing) (ht : ((s.retireSlot ch n).modRec ch n Record.retire).TableSound) :
    ((s.retireSlot ch n).modRec ch n Record.retire).SparingSound := by
  obtain ⟨hmem, hk⟩ := findRec_some hr
  have hw := (State.sparingSound_iff.mp hs).2.1 r hmem
  have hslot : s.retireSlot ch n = match r.spareSlot with
      | some i => s.modChan ch (fun c => c.setSlot i .free)
      | none => s := by
    unfold State.retireSlot
    rw [hr]
    rfl
  have hchan : ∀ c, ((s.retireSlot ch n).modRec ch n Record.retire).chan c = (s.retireSlot ch n).chan c := fun _ => rfl
  have hnames : ∀ i, r.names i ↔ r.spareSlot = some i := fun i => by
    rw [Record.names, (hw.not_sparing hst).1]
    simp
  have hno : ∀ i, ¬ r.retire.names i := fun i h => by rcases h with h | h <;> cases h
  have hidle := hst ∘ (hs.idle_of hmem).mpr
  have hkc : r.key.channel = ch := by rw [hk]
  rw [hkc] at hidle
  refine hs.update ht hmem hk (by rw [← State.retireSlot_table s ch n]; rfl) hk r.retire_whole (fun c hc => ?_)
    (fun i => ?_) (fun i h => absurd h (hno i)) ?_
  · rw [hchan, hslot]
    split
    · exact State.chan_modChan_of_ne _ _ _ _ hc
    · rfl
  · rw [hchan, hslot, hnames, or_iff_right (hno i)]
    cases hsp : r.spareSlot with
    | some j =>
      rw [State.chan_modChan_same, Channel.taken_set (Channel.setSlot_slots _ _ _) (by decide)]
      simp [eq_comm]
    | none => simp
  · rw [hchan, State.retireSlot_migration]
    rw [hk] at hidle
    exact .same (fun e => by cases e) hidle

/-- A migration starts on a FREE slot, which its record then names as its target (R149). -/
theorem State.SparingSound.started (hs : s.SparingSound) {r : Record} {i : SlotId} (b : Bool)
    (hm : (s.chan r.key.channel).migration = none) (hr : r ∈ s.table) (hsp : r.state.sparable = true)
    (hfree : (s.chan r.key.channel).slots.get i = .free) (ht : (s.startMigration r i b).TableSound) :
    (s.startMigration r i b).SparingSound := by
  have hw := (State.sparingSound_iff.mp hs).2.1 r hr
  have hst : r.state ≠ .sparing := by intro e; rw [e] at hsp; cases hsp
  have hchan : (s.startMigration r i b).chan r.key.channel = { (s.chan r.key.channel).setSlot i .allocated with
      migration := some (Migration.start r.key.line i r.location) } := State.chan_modChan_same _ _ _
  have hni := hs.not_names_of_free hr hfree
  refine hs.update ht hr rfl rfl rfl (hw.enterSparing hst (fun h => hni (.inl h)) b)
    (fun c hc => State.chan_modChan_of_ne _ _ _ _ hc) (fun j => ?_) (fun j hj htaken => ?_) ?_
  · rw [hchan, Channel.taken_allocate (i := i) (by rfl), Record.names_enterSparing (hw.not_sparing hst).1]
    have := hs.taken_of_names hr (i := j)
    tauto
  · refine ((Record.names_enterSparing (hw.not_sparing hst).1 i j b).mp hj).resolve_right fun e => ?_
    rw [e] at htaken
    exact absurd (htaken.symm.trans hfree) (by decide)
  · rw [hchan, hm]
    exact .works rfl rfl (r.enterSparing_location hw hsp i b).symm nofun

/-- A migration that ends without a commit gives its target slot back (R32, R161). -/
theorem State.SparingSound.ended (hs : s.SparingSound) (b : Bool) {st : SlotState}
    (hm : (s.chan ch).migration = some m) (hst : st ≠ .allocated) (ht : (s.unitFreed ch m b st).TableSound) :
    (s.unitFreed ch m b st).SparingSound := by
  obtain ⟨r, hr, hk, htarget, -, hsp⟩ := hs.record_of_migration hm
  have hw := (State.sparingSound_iff.mp hs).2.1 r hr
  have hnames : ∀ i, r.names i ↔ r.spareSlot = some i ∨ i = m.target := fun i => by
    rw [Record.names, htarget, Option.some_inj, eq_comm (a := m.target)]
  refine hs.update ht hr hk rfl hk (hw.leaveSparing hsp b) (s.unitFreed_onlyChannel ch m b st).2 (fun i => ?_)
    (fun i hi _ => .inl ((Record.names_leaveSparing b i).mp hi)) ?_
  · have htaken := hs.taken_of_names hr (i := i)
    have hboth := hw.2 i
    rw [hk, hnames] at htaken
    rw [htarget, Option.some_inj, eq_comm (a := m.target)] at hboth
    rw [Channel.taken_set (s.unitFreed_slots ch m b st) hst, Record.names_leaveSparing, hnames]
    tauto
  · rw [State.unitFreed_migration]
    exact .ended (r.leaveSparing_state b) (State.migration_line hm)

/-- A migration takes another target slot (R160). -/
theorem State.SparingSound.retried (hs : s.SparingSound) {i : SlotId} {t : State} (hm : (s.chan ch).migration = some m)
    (hfree : (s.chan ch).slots.get i = .free) (ht : t.TableSound)
    (htab : t.table = updateRec s.table { channel := ch, line := m.line } (fun r => { r with targetSlot := some i }))
    (hothers : ∀ c, c ≠ ch → t.chan c = s.chan c)
    (hslots : (t.chan ch).slots = ((s.chan ch).slots.set m.target.val .defective).set i.val .allocated)
    (hmig : (t.chan ch).migration = some { m with target := i }) : t.SparingSound := by
  obtain ⟨r, hr, hk, htarget, hsrc, hsp⟩ := hs.record_of_migration hm
  have hw := (State.sparingSound_iff.mp hs).2.1 r hr
  have hkc : r.key.channel = ch := by rw [hk]
  have hni := hs.not_names_of_free hr (hkc ▸ hfree)
  have hloc : Record.location { r with targetSlot := some i } = r.location := rfl
  have hnames : ∀ j, r.names j ↔ r.spareSlot = some j ∨ j = m.target := fun j => by
    rw [Record.names, htarget, Option.some_inj, eq_comm (a := m.target)]
  have hnames' : ∀ j, Record.names { r with targetSlot := some i } j ↔ r.spareSlot = some j ∨ j = i := fun j => by
    rw [Record.names, Option.some_inj, eq_comm (a := i)]
  refine hs.update ht hr hk htab hk ?_ hothers (fun j => ?_) (fun j hj htaken => ?_) ?_
  · refine ⟨?_, fun j ⟨h1, h2⟩ => hni (.inl (h1.trans h2.symm))⟩
    unfold Record.Shaped
    rw [hsp]
    exact ⟨rfl, (hw.sparing hsp).2⟩
  · have htaken := hs.taken_of_names hr (i := j)
    have hboth := hw.2 j
    rw [hkc, hnames] at htaken
    rw [htarget, Option.some_inj, eq_comm (a := m.target)] at hboth
    have hset := Channel.taken_set (c := s.chan ch) (d := { s.chan ch with
      slots := (s.chan ch).slots.set m.target.val .defective }) (i := m.target) (st := .defective) rfl (by decide) j
    rw [Channel.taken_allocate (c := { s.chan ch with slots := (s.chan ch).slots.set m.target.val .defective })
      hslots j, hset, hnames', hnames]
    tauto
  · rcases (hnames' j).mp hj with h | h
    · exact .inl h
    · rw [h] at htaken
      exact absurd (htaken.symm.trans hfree) (by decide)
  · rw [hmig]
    exact Refits.works (k := { channel := ch, line := m.line }) hsp rfl (hsrc.trans hloc.symm) (State.migration_line hm)

theorem State.committed_chan (s : State) (ch : ChanId) (m : Migration) :
    (s.committed ch m).chan ch = (match m.source with
      | .slot old => Channel.setSlot { s.chan ch with migration := none } old .defective
      | .line _ => { s.chan ch with migration := none }) ∧
    ∀ c, c ≠ ch → (s.committed ch m).chan c = s.chan c := by
  unfold State.committed
  cases m.source with
  | slot old =>
    refine ⟨?_, fun c hc => ?_⟩
    · dsimp only
      rw [State.chan_modChan_same, State.chan_modChan_same]
      rfl
    · rw [State.chan_modChan_of_ne _ _ _ _ hc, State.chan_modChan_of_ne _ _ _ _ hc]
      rfl
  | line _ =>
    refine ⟨?_, fun c hc => ?_⟩
    · dsimp only
      rw [State.chan_modChan_same]
      rfl
    · rw [State.chan_modChan_of_ne _ _ _ _ hc]
      rfl

/-- A migration commits: its record takes the target slot and gives the source slot, if it had one, back (R31, R162). -/
theorem State.SparingSound.committed (hs : s.SparingSound) (hm : (s.chan ch).migration = some m)
    (ht : (s.committed ch m).TableSound) : (s.committed ch m).SparingSound := by
  obtain ⟨r, hr, hk, htarget, hsrc, hsp⟩ := hs.record_of_migration hm
  have hw := (State.sparingSound_iff.mp hs).2.1 r hr
  have hkc : r.key.channel = ch := by rw [hk]
  obtain ⟨hchan, hothers⟩ := State.committed_chan s ch m
  have hnames : ∀ j, r.names j ↔ r.spareSlot = some j ∨ j = m.target := fun j => by
    rw [Record.names, htarget, Option.some_inj, eq_comm (a := m.target)]
  have hnames' : ∀ j, r.commit.names j ↔ j = m.target := fun j => by
    simp [Record.names, Record.commit, htarget, eq_comm]
  rw [Record.location_of_sparing hsp] at hsrc
  refine hs.update ht hr hk (State.committed_table s ch m) hk (hw.commit hsp) hothers (fun j => ?_) (fun j hj _ => ?_) ?_
  · have htaken := hs.taken_of_names hr (i := j)
    have hboth := hw.2 j
    rw [hkc, hnames] at htaken
    rw [htarget, Option.some_inj, eq_comm (a := m.target)] at hboth
    rw [hnames', hnames, hchan, hsrc]
    cases hspare : r.spareSlot with
    | some old =>
      rw [hspare, Option.some_inj, eq_comm (a := old)] at htaken hboth
      have hset := Channel.taken_set (c := s.chan ch) (d := Channel.setSlot { s.chan ch with migration := none } old
        .defective) (Channel.setSlot_slots _ _ _) (by decide) j
      rw [Option.some_inj, eq_comm (a := old)]
      exact hset.trans (by tauto)
    | none =>
      rw [hspare] at htaken
      show (s.chan ch).Taken j ↔ _
      have : ¬ (none = some j) := nofun
      tauto
  · exact (hnames j).mpr (.inr ((hnames' j).mp hj))
  · have hidle : ((s.committed ch m).chan ch).migration = none := by
      rw [hchan]
      split
      · rw [Channel.setSlot_migration]
      · rfl
    rw [hidle]
    exact .ended (fun e => by cases e) (State.migration_line hm)

end

/-- Every move keeps the agreement. -/
theorem State.Moves.sparingSound {s t : State} (h : s.Moves t) (hs : s.SparingSound) : t.SparingSound := by
  have hst := (State.sparingSound_iff.mp hs).1
  have ht := h.tableSound hst
  cases h with
  | alike h => exact hs.of_alike ht h
  | rescored hr hq =>
    obtain ⟨hmem, hk⟩ := findRec_some hr
    refine hs.of_alike ht ⟨?_, fun c => .refl _⟩
    unfold updateRec
    rw [List.forall₂_map_right_iff]
    refine List.forall₂_same.mpr fun x hx => ?_
    split
    · next hxk => rwa [(hst.rec_eq hmem hk).mp ⟨hx, hxk⟩]
    · exact .refl x
  | removed p hp => exact hs.removed p hp
  | created _ hroom hr => exact hs.created hroom hr ht
  | adopted hnone _ hfree => exact hs.adopted hnone hfree ht
  | @retired ch n r hr hor =>
    refine hs.retired hr ?_ ht
    obtain ⟨hmem, hk⟩ := findRec_some hr
    rcases hor with h | h
    · exact h
    · intro e
      have hb := (hs.idle_of hmem).mp e
      have hkc : r.key.channel = ch := by rw [hk]
      rw [hkc, h] at hb
      cases hb
  | started b hm hr hsp hfree => exact hs.started b hm hr hsp hfree ht
  | ended b st hm hst => exact hs.ended b hm hst ht
  | retried hm hfree =>
    refine hs.retried hm hfree ht rfl (fun c hc => State.chan_modChan_of_ne _ _ _ _ hc) ?_ ?_
    · rw [State.chan_modChan_same]
      simp
    · rw [State.chan_modChan_same]
  | committed hm => exact hs.committed hm ht
  | emptied htab hc =>
    refine State.sparingSound_iff.mpr ⟨ht, fun r hr => absurd (htab ▸ hr) List.not_mem_nil, fun c => ?_⟩
    obtain ⟨hm, hfree⟩ := hc c
    unfold State.AgreesAt
    rw [hm, htab]
    exact ⟨fun i => iff_of_false (hfree i) fun ⟨_, h, _⟩ => absurd h List.not_mem_nil,
      fun _ h => absurd h List.not_mem_nil, fun _ h => absurd h List.not_mem_nil, nofun⟩

/-- Settles O57: every step is a run of moves, and each move keeps the agreement. -/
theorem stepsKeepSparePoolAndRecordsAgreeing : Obligations.StepsKeepSparePoolAndRecordsAgreeing :=
  keptByStep_of_moves fun _ _ => State.Moves.sparingSound

end Sys2Proof.Machine
end

section
/-! SUPPORT. The record commands (R39 to R46): the record that a key finds, the record that NEXT returns, and the replies. -/

namespace Sys2Proof.Machine

/-! ### The record of a line -/

section
variable {s : State} {ch : ChanId} {n : Nat} {r : Record}

theorem State.TableSound.rec?_eq_some (hs : s.TableSound) (hr : r ∈ s.table) (hk : r.key = { channel := ch, line := n }) :
    s.rec? ch n = some r := by
  cases h : s.rec? ch n with
  | none => exact absurd hk (findRec_none h hr)
  | some q =>
    obtain ⟨hq, hqk⟩ := findRec_some h
    rw [hs.unique hq hr (hqk.trans hk.symm)]

theorem State.rec?_eq_none (h : ∀ r ∈ s.table, r.key ≠ { channel := ch, line := n }) : s.rec? ch n = none := by
  cases hf : s.rec? ch n with
  | none => rfl
  | some q =>
    obtain ⟨hq, hqk⟩ := findRec_some hf
    exact absurd hqk (h q hq)

theorem State.readout_of_rec (h : s.rec? ch n = some r) : s.readout ch n = recordReadout r := by
  unfold State.readout
  rw [h]

theorem State.rec?_modRec (f : Record → Record) (hf : ∀ x : Record, (f x).key = x.key) :
    (s.modRec ch n f).rec? ch n = (s.rec? ch n).map f := findRec_updateRec_same hf

theorem recordReply_of_rec (h : s.rec? ch n = some r) (res : Result) (l : List ChanId) :
    recordReply s ch n res l = { state := s, result := res, payload := recordReadout r, selects := l } := by
  unfold recordReply
  rw [State.readout_of_rec h]

end

/-! ### NEXT -/

theorem yesNoArg_of_two_le {b : Byte} (h : 2 ≤ b.toNat) : yesNoArg b = none := by
  unfold yesNoArg
  split
  · omega
  · omega
  · rfl

theorem stateArg_of_five_le {b : Byte} (h : 5 ≤ b.toNat) : stateArg b = none := by
  unfold stateArg
  split <;> simp_all

theorem filterArg_of_six_le {b : Byte} (h : 6 ≤ b.toNat) : filterArg b = none := by
  have h5 : b ≠ 5 := by rintro rfl; exact absurd h (by decide)
  unfold filterArg
  rw [if_neg h5, stateArg_of_five_le (by omega)]
  rfl

theorem nextReply_found {flag ch : Byte} {line : BitVec 32} {p : Bool} {filter : Byte} {f : Filter} {s : State}
    {r : Record} (hp : yesNoArg flag = some p) (hf : filterArg filter = some f)
    (hr : nextRecord s.table (afterArg p ch line) f = some r) :
    nextReply flag ch line filter s = reply s (recordReadout r) := by
  unfold nextReply
  simp only [hp, hf, hr]

theorem nextReply_notFound {flag ch : Byte} {line : BitVec 32} {p : Bool} {filter : Byte} {f : Filter} {s : State}
    (hp : yesNoArg flag = some p) (hf : filterArg filter = some f)
    (hr : nextRecord s.table (afterArg p ch line) f = none) :
    nextReply flag ch line filter s = refuse s .notFound := by
  unfold nextReply
  simp only [hp, hf, hr]

theorem nextReply_range {flag filter : Byte} (h : 2 ≤ flag.toNat ∨ 6 ≤ filter.toNat) (ch : Byte) (line : BitVec 32)
    (s : State) : nextReply flag ch line filter s = refuse s .range := by
  unfold nextReply
  rcases h with h | h
  · rw [yesNoArg_of_two_le h]
  · rw [filterArg_of_six_le h]
    cases yesNoArg flag <;> rfl

/-- Of a sound table NEXT returns the record that no other passing record behind the after argument comes before (R41). -/
theorem State.TableSound.nextRecord_eq {s : State} (hs : s.TableSound) {a : After} {f : Filter} {r : Record}
    (hr : r ∈ s.table) (ha : a.precedes r.key = true) (hf : f.passes r.state = true)
    (hmin : ∀ q ∈ s.table, f.passes q.state = true → a.precedes q.key = true → Key.lt q.key r.key = false) :
    nextRecord s.table a f = some r := by
  refine firstBy_eq_some (List.mem_filter.mpr ⟨hr, by rw [ha, hf]; rfl⟩) (fun q hq hne => ?_) (by simp [Key.lt])
  obtain ⟨hq, hqa⟩ := List.mem_filter.mp hq
  obtain ⟨hpre, hpass⟩ := Bool.and_eq_true_iff.mp hqa
  have hlt := hmin q hq hpass hpre
  exact ⟨Key.lt_or_lt (fun e => hne (hs.unique hq hr e)) hlt, hlt⟩

theorem nextRecord_eq_none {l : List Record} {a : After} {f : Filter}
    (h : ∀ q ∈ l, f.passes q.state = true → a.precedes q.key = false) : nextRecord l a f = none := by
  have hl : l.filter (fun r => a.precedes r.key && f.passes r.state) = [] := by
    refine List.filter_eq_nil_iff.mpr fun q hq hp => ?_
    obtain ⟨hpre, hpass⟩ := Bool.and_eq_true_iff.mp hp
    rw [h q hq hpass] at hpre
    cases hpre
  unfold nextRecord
  rw [hl]
  rfl

/-- Settles O21: what LOOKUP finds is the record of the key, and what NEXT finds comes first in key order. -/
theorem lookupAndNextFindRecords : Obligations.LookupAndNextFindRecords := by
  intro s e ch line hready hs
  have hafter1 : afterArg true (BitVec.ofNat 8 ch.val) line = .key { channel := ch, line := line.toNat } := by
    simp [afterArg]
  have hbeyond : ∀ b : Byte, 4 ≤ b.toNat → afterArg true b line = .beyond := fun b hb => by
    simp [afterArg, channelArg_of_four_le hb]
  have hstart : ∀ b : Byte, afterArg false b line = .start := fun b => rfl
  refine ⟨fun r hr hk => ?_, fun hno => ?_, fun filter f hf => ⟨fun r hr hpass => ⟨fun hlt hmin => ?_, fun hmin b => ?_⟩,
    fun hno => ?_, fun b hb => ?_, fun hno b => ?_⟩, ⟨rfl, rfl, rfl, rfl, rfl, rfl⟩, fun flag b filter h => ?_⟩
  · have hrec := hs.rec?_eq_some hr hk
    exact State.answer_plain hready ((withRecord_some hrec _).trans (recordReply_of_rec hrec _ _))
  · exact State.answer_refuse hready (withRecord_none (State.rec?_eq_none hno) _)
  · refine State.answer_reply hready (nextReply_found rfl hf ?_)
    rw [hafter1, hs.nextRecord_eq (a := .key _) hr hlt hpass hmin]
  · refine State.answer_reply hready (nextReply_found rfl hf ?_)
    rw [hstart, hs.nextRecord_eq (a := .start) hr rfl hpass fun q hq hp _ => hmin q hq hp]
  · refine State.answer_refuse hready (nextReply_notFound rfl hf ?_)
    rw [hafter1, nextRecord_eq_none (a := .key _) hno]
  · refine State.answer_refuse hready (nextReply_notFound rfl hf ?_)
    rw [hbeyond b hb, nextRecord_eq_none (a := .beyond) fun _ _ _ => rfl]
  · refine State.answer_refuse hready (nextReply_notFound rfl hf ?_)
    rw [hstart, nextRecord_eq_none fun q hq hp => by rw [hno q hq] at hp; cases hp]
  · exact State.answer_refuse hready (nextReply_range h _ _ _)

/-! ### PIN, UNPIN, CLEAR_HOLD and RELEASE -/

section
variable {s : State} {ch : ChanId} {line : BitVec 32} {r : Record}

theorem changeUnlessRetired_refused (hr : s.rec? ch line.toNat = some r) (hst : r.state = .retired) (f : Record → Record)
    (sel : ChanId → Record → List ChanId) :
    changeUnlessRetired (BitVec.ofNat 8 ch.val) line f sel s = refuse s .state :=
  (withRecord_some hr _).trans (if_pos hst)

theorem changeUnlessRetired_taken (hr : s.rec? ch line.toNat = some r) (hst : r.state ≠ .retired) {f : Record → Record}
    (hf : ∀ x : Record, (f x).key = x.key) (sel : ChanId → Record → List ChanId) :
    changeUnlessRetired (BitVec.ofNat 8 ch.val) line f sel s =
      { state := s.modRec ch line.toNat f, result := .ok, payload := recordReadout (f r), selects := sel ch r } := by
  refine (withRecord_some hr _).trans ((if_neg hst).trans ?_)
  exact recordReply_of_rec (by rw [State.rec?_modRec f hf, hr]; rfl) _ _

end

/-- Settles O23: the change of one flag, refused on a RETIRED record. -/
theorem pinUnpinAndClearHold : Obligations.PinUnpinAndClearHold := by
  intro s e ch line r hready hr
  refine ⟨fun hst => ⟨?_, ?_, ?_⟩, fun hst => ⟨?_, ?_, fun hh => ?_, fun hh => ?_⟩⟩
  · exact State.answer_refuse hready (changeUnlessRetired_refused hr hst _ _)
  · exact State.answer_refuse hready (changeUnlessRetired_refused hr hst _ _)
  · exact State.answer_refuse hready (changeUnlessRetired_refused hr hst _ _)
  · refine State.answer_plain hready (changeUnlessRetired_taken hr hst ?_ _)
    exact fun _ => rfl
  · refine State.answer_plain hready (changeUnlessRetired_taken hr hst ?_ _)
    exact fun _ => rfl
  · refine State.answer_plain hready ((changeUnlessRetired_taken hr hst ?_ _).trans ?_)
    · exact fun _ => rfl
    · rw [if_neg (by rw [hh]; decide)]
  · refine State.answer_select hready ((changeUnlessRetired_taken hr hst ?_ _).trans ?_)
    · exact fun _ => rfl
    · rw [if_pos hh]

/-- Settles O25: the record of the key leaves the table, unless it is SPARING or SPARED. -/
theorem releaseRemovesRecord : Obligations.ReleaseRemovesRecord := by
  intro s e ch line hready
  refine ⟨fun hno => State.answer_refuse hready (withRecord_none hno _), fun r hr => ⟨fun hst => ?_, fun hst => ?_⟩⟩
  · refine State.answer_refuse hready ((withRecord_some hr _).trans (if_neg ?_))
    rcases hst with h | h <;> simp [h, RecState.releasable]
  · have hk := (findRec_some hr).2
    refine State.answer_reply hready ((withRecord_some hr _).trans ((if_pos ?_).trans ?_))
    · rcases hst with h | h | h <;> simp [h, RecState.releasable]
    · rw [hk]
      rfl

/-! ### ADOPT -/

section
variable {s : State} {ch : ChanId} {line : BitVec 32} {state : Byte} {slot : BitVec 16}

theorem findRec_insertRec {l : List Record} {r : Record} (h : findRec l r.key = none) :
    findRec (insertRec l r) r.key = some r := by
  unfold findRec at *
  induction l with
  | nil => simp [insertRec]
  | cons x xs ih =>
    rw [List.find?_cons] at h
    split at h
    · cases h
    next hx =>
    unfold insertRec
    split
    · simp
    · rw [List.find?_cons, hx]
      exact ih h

theorem adoptReply_none (h : adoptArg state slot = none) :
    adoptReply (BitVec.ofNat 8 ch.val) line state slot s = refuse s .range := by
  unfold adoptReply
  rw [channelArg_ofNat, h]

theorem adoptReply_some {a : AdoptAs} (h : adoptArg state slot = some a) :
    adoptReply (BitVec.ofNat 8 ch.val) line state slot s =
      if (s.chan ch).visible ≤ line.toNat then refuse s .range
      else if (s.rec? ch line.toNat).isSome then refuse s .exists
      else if tableCapacity ≤ s.table.length then refuse s .full
      else if (s.chan ch).adoptable a = false then refuse s .state
      else recordReply (s.adopt { channel := ch, line := line.toNat } a) ch line.toNat .ok [] := by
  unfold adoptReply
  rw [channelArg_ofNat, h]

theorem State.adopt_table (s : State) (k : Key) (a : AdoptAs) : (s.adopt k a).table = insertRec s.table (adopted k a) := by
  cases a <;> rfl

theorem adopted_key (k : Key) (a : AdoptAs) : (adopted k a).key = k := by cases a <;> rfl

/-- ADOPT with every check passed. -/
theorem adoptReply_created {a : AdoptAs} (h : adoptArg state slot = some a) (hv : line.toNat < (s.chan ch).visible)
    (hnone : s.rec? ch line.toNat = none) (hroom : s.table.length < 1024) (hslot : (s.chan ch).adoptable a = true) :
    adoptReply (BitVec.ofNat 8 ch.val) line state slot s =
      { state := s.adopt { channel := ch, line := line.toNat } a, result := .ok
        payload := recordReadout (adopted { channel := ch, line := line.toNat } a), selects := [] } := by
  rw [adoptReply_some h, if_neg (by omega), if_neg (by rw [hnone]; decide), if_neg (by unfold tableCapacity; omega),
    if_neg (by rw [hslot]; decide)]
  refine recordReply_of_rec ?_ _ _
  have hk := adopted_key { channel := ch, line := line.toNat } a
  have hf := findRec_insertRec (l := s.table) (r := adopted { channel := ch, line := line.toNat } a)
  rw [hk] at hf
  rw [State.rec?, State.adopt_table]
  exact hf hnone

theorem stateArg_some {b : Byte} {st : RecState} (h : stateArg b = some st) :
    b = match st with | .watch => 0 | .hot => 1 | .sparing => 2 | .spared => 3 | .retired => 4 := by
  unfold stateArg at h
  split at h
  case h_6 => cases h
  all_goals (cases h; exact BitVec.eq_of_toNat_eq ‹_›)

theorem adoptArg_none (h : state ∉ [(0 : Byte), 3, 4] ∨ (state = 3 ∧ 512 ≤ slot.toNat)) :
    adoptArg state slot = none := by
  unfold adoptArg
  cases hs : stateArg state with
  | none => rfl
  | some st =>
    have hst := stateArg_some hs
    cases st with
    | hot | sparing => rfl
    | watch | retired => rw [hst] at h; simp at h
    | spared =>
      have hslot : 512 ≤ slot.toNat := by rw [hst] at h; simpa using h
      have hnone : slotArg slot = none := by unfold slotArg; rw [dif_neg (by omega)]
      rw [hnone]
      rfl

theorem slotArg_of_toNat {i : SlotId} (h : slot.toNat = i.val) : slotArg slot = some i := by
  rw [← slotArg_ofNat i, ← h, BitVec.ofNat_toNat, BitVec.setWidth_eq]

theorem adoptArg_of_mem (hst : state ∈ [(0 : Byte), 3, 4]) (hslot : state = 3 → slot.toNat < 512) :
    ∃ a, adoptArg state slot = some a := by
  rcases List.mem_cons.mp hst with rfl | hst
  · exact ⟨.watch, rfl⟩
  rcases List.mem_cons.mp hst with rfl | hst
  · exact ⟨.spared ⟨slot.toNat, hslot rfl⟩, by
      unfold adoptArg
      rw [slotArg_of_toNat (i := ⟨slot.toNat, hslot rfl⟩) rfl]
      rfl⟩
  · rw [List.mem_singleton.mp hst]
    exact ⟨.retired, rfl⟩

end

/-- Settles O22: the checks of ADOPT in order, and the record and the slot it takes. -/
theorem adoptCreatesRecord : Obligations.AdoptCreatesRecord := by
  intro s e ch line state slot hready
  refine ⟨fun h => State.answer_refuse hready ?_, fun hv hst hslot => ⟨fun hsome => ?_, fun hnone hfull => ?_,
    fun hnone hroom r hr => ⟨fun h0 => ?_, fun h4 => ?_, fun h3 i hi => ⟨fun hbusy => ?_, fun hfree => ?_⟩⟩⟩⟩
  · cases ha : adoptArg state slot with
    | none => exact adoptReply_none ha
    | some a =>
      rw [adoptReply_some ha, if_pos]
      refine h.resolve_right fun h => ?_
      rw [adoptArg_none h] at ha
      cases ha
  · obtain ⟨a, ha⟩ := adoptArg_of_mem hst hslot
    refine State.answer_refuse hready ?_
    rw [adoptReply_some ha, if_neg (by omega), if_pos hsome]
  · obtain ⟨a, ha⟩ := adoptArg_of_mem hst hslot
    refine State.answer_refuse hready ?_
    rw [adoptReply_some ha, if_neg (by omega), if_neg (by rw [hnone]; decide),
      if_pos (show tableCapacity ≤ _ from hfull)]
  · subst h0 hr
    exact State.answer_plain hready (adoptReply_created (a := .watch) rfl hv hnone hroom rfl)
  · subst h4 hr
    exact State.answer_plain hready (adoptReply_created (a := .retired) rfl hv hnone hroom rfl)
  all_goals
    have ha : adoptArg state slot = some (.spared i) := by
      subst h3
      unfold adoptArg
      rw [slotArg_of_toNat hi]
      rfl
  · refine State.answer_refuse hready ?_
    have hno : (s.chan ch).adoptable (.spared i) = false := by simpa [Channel.adoptable] using hbusy
    rw [adoptReply_some ha, if_neg (by omega), if_neg (by rw [hnone]; decide), if_neg (by unfold tableCapacity; omega),
      if_pos hno]
  · have hyes : (s.chan ch).adoptable (.spared i) = true := by simpa [Channel.adoptable] using hfree
    subst hr
    refine ⟨_, State.answer_plain hready (adoptReply_created ha hv hnone hroom hyes), rfl, fun c hc => ?_, ?_⟩
    · rw [State.chan_withAnswer]
      exact State.chan_modChan_of_ne _ _ _ _ hc
    · rw [State.chan_withAnswer]
      exact (State.chan_modChan_same _ _ _).trans (Channel.setSlot_allocated _ _)

end Sys2Proof.Machine
end

section
/-! SUPPORT. The commands and selections of sparing: SPARE, CANCEL and RETIRE, and what a selection takes (R29, R38, R44, R147 to
R151). -/

namespace Sys2Proof.Machine

/-! ### Selections -/

section
variable {s : State} {ch : ChanId} {r : Record}

theorem RecState.sparable_iff (st : RecState) : st.sparable = true ↔ st = .watch ∨ st = .hot ∨ st = .spared := by
  cases st <;> simp [RecState.sparable]

theorem State.isCandidate_of (hch : r.key.channel = ch) (hw : r.spareWanted = true) (hh : r.hold = false)
    (hp : (s.policy (s.classOf ch r.key.line)).autoSpare = true) (hs : r.state.sparable = true) :
    s.isCandidate ch r = true := by
  unfold State.isCandidate
  rw [hch, hw, hh, hp, hs]
  simp

theorem State.chosen_eq_none (h : ∀ r ∈ s.table, s.isCandidate ch r = false) : s.chosen ch = none := by
  have hl : s.table.filter (s.isCandidate ch) = [] := List.filter_eq_nil_iff.mpr fun r hr => by rw [h r hr]; decide
  unfold State.chosen
  rw [hl]
  rfl

/-- The candidate with the highest score, and of those with the lowest line, is the one chosen (R38). -/
theorem State.chosen_eq_some (hr : r ∈ s.table) (hc : s.isCandidate ch r = true)
    (hbest : ∀ q ∈ s.table, q ≠ r → s.isCandidate ch q = true →
      q.score < r.score ∨ (q.score = r.score ∧ r.key.line < q.key.line)) : s.chosen ch = some r := by
  refine firstBy_eq_some (List.mem_filter.mpr ⟨hr, hc⟩) (fun q hq hne => ?_) (by simp [Record.selectsBefore])
  obtain ⟨hq, hqc⟩ := List.mem_filter.mp hq
  have hb := hbest q hq hne hqc
  simp only [Record.selectsBefore, Bool.or_eq_true, Bool.and_eq_true, decide_eq_true_eq, Bool.or_eq_false_iff,
    Bool.and_eq_false_iff, decide_eq_false_iff_not]
  omega

/-- What the start of a migration leaves (R149). -/
theorem State.startMigration_chan (s : State) (r : Record) (i : SlotId) (b : Bool) :
    (s.startMigration r i b).chan r.key.channel = { s.chan r.key.channel with
      slots := (s.chan r.key.channel).slots.set i.val .allocated, exhausted := false
      flights := markMoved i (s.chan r.key.channel).flights
      migration := some
        { line := r.key.line, target := i, source := r.location, phase := .copyRead, inFlight := false
          copyWritten := false, retry := 0, held := none, expected := 0 } } := by
  obtain ⟨-, -, -, hc⟩ := State.startMigration_spec s r i b
  rw [hc, Channel.setSlot_allocated]
  rfl

theorem Record.enterSparing_key (r : Record) (i : SlotId) (b : Bool) : (r.enterSparing i b).key = r.key := rfl

theorem Record.enterSparing_false (r : Record) (i : SlotId) : r.enterSparing i false = { r with
    state := .sparing, targetSlot := some i, priorState := some (if r.state = .spared then .spared else .hot) } := by
  simp [Record.enterSparing]

theorem Record.enterSparing_true (r : Record) (i : SlotId) : r.enterSparing i true = { r with
    state := .sparing, targetSlot := some i, hold := false
    priorState := some (if r.state = .spared then .spared else .hot) } := by
  simp [Record.enterSparing]

end

/-- Settles O29: the candidate chosen, and what its migration's start leaves; without a FREE slot the refusal. -/
theorem selectionTakesBestCandidate : Obligations.SelectionTakesBestCandidate := by
  intro s ch hs
  refine ⟨State.select_busy, fun hidle => ⟨fun hno => ?_, fun r hr hch hw hh hp hst hbest => ?_⟩⟩
  · rw [State.select_idle hidle, State.chosen_eq_none]
    intro r hr
    by_contra hc
    obtain ⟨hch, hw, hh, hp, hsp⟩ := State.isCandidate_spec (Bool.not_eq_false _ ▸ hc)
    rw [hno r hr hch hw hh hp] at hsp
    cases hsp
  · have hchosen : s.chosen ch = some r :=
      State.chosen_eq_some hr (State.isCandidate_of hch hw hh hp (r.state.sparable_iff.mpr hst)) hbest
    refine ⟨fun hfull => ?_, fun i hfree hlow => ?_⟩
    · rw [State.select_idle hidle, hchosen, Channel.lowestFree_eq_none.mpr hfull]
      rfl
    · have hsel : s.select ch = s.startMigration r i false := by
        rw [State.select_idle hidle, hchosen, Channel.lowestFree_eq_some.mpr ⟨hfree, hlow⟩]
      obtain ⟨honly, hcauses, htable, -⟩ := State.startMigration_spec s r i false
      have hk : r.key = { channel := ch, line := r.key.line } := by rw [← hch]
      rw [hsel]
      refine ⟨?_, fun k hne => ?_, hch ▸ State.startMigration_chan s r i false, hch ▸ honly, hcauses⟩
      · rw [State.rec?, htable, ← hk, findRec_updateRec_same (Record.enterSparing_key · i _)]
        rw [show findRec s.table r.key = some r from hk ▸ hs.rec?_eq_some hr hk, Option.map_some,
          Record.enterSparing_false]
      · rw [htable]
        exact findRec_updateRec_ne (Record.enterSparing_key · i _) (hk ▸ hne)

/-! ### SPARE -/

/-- Settles O26: the checks of SPARE in order, and the start of the migration. -/
theorem spareStartsMigration : Obligations.SpareStartsMigration := by
  intro s e ch line hready
  refine ⟨fun hno => State.answer_refuse hready (withRecord_none hno _), fun r hr => ⟨fun hst => ?_, fun hst =>
    ⟨fun hbusy => ?_, fun hidle => ⟨fun hfull => ?_, fun i q hfree hlow hq => ?_⟩⟩⟩⟩
  · refine State.answer_refuse hready ((withRecord_some hr _).trans (if_pos ?_))
    rcases hst with h | h <;> (rw [h]; rfl)
  all_goals have hsp : ¬ r.state.sparable = false := by rw [r.state.sparable_iff.mpr hst]; decide
  · exact State.answer_refuse hready ((withRecord_some hr _).trans ((if_neg hsp).trans (if_pos hbusy)))
  · refine State.answer_refuse hready ((withRecord_some hr _).trans ((if_neg hsp).trans ?_))
    rw [if_neg (by rw [hidle]; decide), Channel.lowestFree_eq_none.mpr hfull]
  · obtain ⟨-, hk⟩ := findRec_some hr
    have hrec : (s.startMigration r i true).rec? ch line.toNat = some q := by
      rw [State.rec?, (State.startMigration_spec s r i true).2.2.1, hk, findRec_updateRec_same (Record.enterSparing_key · i _),
        show findRec s.table _ = some r from hr, Option.map_some, Record.enterSparing_true, hq]
    have hkc : r.key.channel = ch := by rw [hk]
    have hkl : r.key.line = line.toNat := by rw [hk]
    have hreply : spareReply (BitVec.ofNat 8 ch.val) line s = 
        { state := s.startMigration r i true, result := .accepted, payload := recordReadout q, selects := [] } := by
      refine (withRecord_some hr _).trans ((if_neg hsp).trans ?_)
      rw [if_neg (by rw [hidle]; decide), Channel.lowestFree_eq_some.mpr ⟨hfree, hlow⟩]
      exact recordReply_of_rec hrec _ _
    obtain ⟨⟨-, hothers⟩, -, htable, -⟩ := State.startMigration_spec s r i true
    refine ⟨_, State.answer_plain hready hreply, ?_, fun c hc => ?_, ?_⟩
    · have hmap : s.table.map (fun x => if x.key = r.key then { x with
          state := .sparing, targetSlot := some i, hold := false
          priorState := some (if x.state = .spared then .spared else .hot) } else x) =
          (s.startMigration r i true).table := by
        rw [htable]
        unfold updateRec
        simp only [Record.enterSparing_true]
      rw [hmap]
      rfl
    · exact hothers c (hkc ▸ hc)
    · rw [State.chan_withAnswer, ← hkc, State.startMigration_chan, hkl]

end Sys2Proof.Machine
end

section
/-! SUPPORT. What leaves with a slot, and the commands that end a migration: CANCEL and RETIRE (R44, R93, R115, R151). -/

namespace Sys2Proof.Machine

/-! ### The locations of offers -/

theorem WbqTakes.forall_loc {P : Loc → Prop} {q q' : List WbEntry} {e : WbEntry} (h : WbqTakes q e q')
    (hq : ∀ x ∈ q, P x.loc) (he : P e.loc) : ∀ x ∈ q', P x.loc := by
  cases h with
  | replaces =>
    intro x hx
    obtain ⟨y, hy, rfl⟩ := List.mem_map.mp hx
    split
    · exact hq y hy
    · exact hq y hy
  | joins =>
    intro x hx
    rcases List.mem_append.mp hx with hx | hx
    · exact hq x hx
    · exact List.mem_singleton.mp hx ▸ he

/-- Offers and a queue at certain locations leave a queue and held offers at such locations. -/
theorem PatrolOffers.forall_loc {P : Loc → Prop} {q es r h : List WbEntry} (ho : PatrolOffers q es r h)
    (hq : ∀ x ∈ q, P x.loc) (hes : ∀ x ∈ es, P x.loc) : (∀ x ∈ r, P x.loc) ∧ ∀ x ∈ h, P x.loc := by
  induction ho with
  | done => exact ⟨hq, fun _ h => absurd h List.not_mem_nil⟩
  | taken q q' r h es e ht _ ih =>
    exact ih (ht.forall_loc hq (hes e List.mem_cons_self)) fun x hx => hes x (List.mem_cons_of_mem _ hx)
  | held => exact ⟨hq, hes⟩

/-- Nothing is left at a slot whose entries and held offers were dropped (R93, R115). -/
theorem Channel.Drops.none_atSlot {c d : Channel} {n : Nat} {i : SlotId} (h : c.Drops d n (WbEntry.atSlot i)) :
    (∀ w ∈ d.wbq, w.loc ≠ .slot i) ∧ ∀ w ∈ d.patrol.held, w.loc ≠ .slot i := by
  obtain ⟨-, hnone, hsome⟩ := h
  have hkept : ∀ l : List WbEntry, ∀ w ∈ l.filter (fun e => !WbEntry.atSlot i e), w.loc ≠ .slot i := fun l w hw => by
    simpa [WbEntry.atSlot] using (List.mem_filter.mp hw).2
  by_cases hany : ∃ e ∈ c.wbq, WbEntry.atSlot i e = true
  · exact (hsome hany).1.forall_loc (P := (· ≠ .slot i)) (hkept _) (hkept _)
  · have hno : ∀ e ∈ c.wbq, WbEntry.atSlot i e = false := fun e he =>
      Bool.eq_false_iff.mpr fun h => hany ⟨e, he, h⟩
    obtain ⟨hw, hh, -⟩ := hnone hno
    rw [hw, hh]
    exact ⟨fun w hw => by simpa [WbEntry.atSlot] using hno w hw, hkept _⟩

/-! ### CANCEL -/

/-- What an operation on one channel leaves, said of the state after it. -/
theorem State.OnlyChannel.frame {s t : State} {ch : ChanId} (h : s.OnlyChannel t ch) (hc : t.causes = s.causes) :
    t = { s with table := t.table, chans := t.chans } := by
  conv_rhs => rw [← h.1]
  rw [← hc]

section
variable {s : State} {ch : ChanId} {m : Migration} {r : Record}

theorem State.cancelMigration_eq (hm : (s.chan ch).migration = some m) (b : Bool) :
    s.cancelMigration ch b = s.unitFreed ch m b .free := by
  unfold State.cancelMigration
  rw [hm]
  rfl

/-- The record of the cancelled migration, and the other records (R32). -/
theorem State.cancelMigration_rec (hm : (s.chan ch).migration = some m) (b : Bool) :
    (s.cancelMigration ch b).rec? ch m.line = (s.rec? ch m.line).map (fun r => r.leaveSparing b) ∧
      ∀ k : Key, k ≠ { channel := ch, line := m.line } → findRec (s.cancelMigration ch b).table k = findRec s.table k := by
  rw [State.cancelMigration_eq hm, State.rec?, State.unitFreed_table]
  exact ⟨findRec_updateRec_same (Record.leaveSparing_key b), fun k hk => findRec_updateRec_ne (Record.leaveSparing_key b) hk⟩

theorem State.cancelMigration_onlyChannel (s : State) (ch : ChanId) (b : Bool) :
    s.OnlyChannel (s.cancelMigration ch b) ch ∧ (s.cancelMigration ch b).causes = s.causes := by
  unfold State.cancelMigration
  split
  · exact ⟨.refl _ _, rfl⟩
  · next m hm => exact ⟨s.unitFreed_onlyChannel ch m b .free, rfl⟩

end

/-- Settles O27: the migration's end, and the selection after the response. -/
theorem cancelEndsMigration : Obligations.CancelEndsMigration := by
  intro s e ch line r hready hr
  refine ⟨fun hst => State.answer_refuse hready ((withRecord_some hr _).trans (if_neg hst)), ?_⟩
  intro m p q hst hprior hm hline hq
  obtain ⟨hrec, hothers⟩ := State.cancelMigration_rec hm true
  rw [hline] at hrec hothers
  have hleave : r.leaveSparing true = q := by
    rw [hq]
    unfold Record.leaveSparing
    rw [hprior, Bool.or_true]
    rfl
  rw [hr, Option.map_some, hleave] at hrec
  obtain ⟨hdrops, hchan⟩ := State.cancelMigration_spec s ch m true hm _ rfl
  obtain ⟨hw, hh⟩ := hdrops.none_atSlot
  obtain ⟨honly, hcauses⟩ := s.cancelMigration_onlyChannel ch true
  have hreply : cancelReply (BitVec.ofNat 8 ch.val) line s =
      { state := s.cancelMigration ch true, result := .ok, payload := recordReadout q, selects := [ch] } :=
    (withRecord_some hr _).trans ((if_pos hst).trans (recordReply_of_rec hrec _ _))
  refine ⟨_, State.answer_select hready hreply, hrec, ?_, hothers, honly.2, hw, hh, hdrops, hchan⟩
  conv_lhs => rw [honly.frame hcauses]
  rfl

/-! ### RETIRE -/

section
variable {s : State} {ch : ChanId} {line : BitVec 32} {m : Migration} {r : Record} {i : SlotId}

theorem State.retire_rec {t : State} {n : Nat} (h : t.rec? ch n = some r) :
    ((t.retireSlot ch n).modRec ch n Record.retire).rec? ch n = some r.retire := by
  rw [State.rec?_modRec Record.retire fun _ => rfl, State.rec?, State.retireSlot_table,
    show findRec t.table _ = some r from h]
  rfl

theorem State.retireSlot_none {t : State} {n : Nat} (h : t.rec? ch n = some r) (hs : r.spareSlot = none) :
    t.retireSlot ch n = t := by
  unfold State.retireSlot
  rw [h, Option.bind_some, hs]

theorem State.retireSlot_some {t : State} {n : Nat} (h : t.rec? ch n = some r) (hs : r.spareSlot = some i) :
    t.retireSlot ch n = t.modChan ch (fun c => c.setSlot i .free) := by
  unfold State.retireSlot
  rw [h, Option.bind_some, hs]

theorem retireReply_taken (hr : s.rec? ch line.toNat = some r) (hst : r.state ≠ .retired) {q : Record}
    (hq : (s.retire ch line.toNat r).rec? ch line.toNat = some q) :
    retireReply (BitVec.ofNat 8 ch.val) line s =
      { state := s.retire ch line.toNat r, result := .ok, payload := recordReadout q
        selects := if r.retireFrees then [ch] else [] } :=
  (withRecord_some hr _).trans ((if_neg hst).trans (recordReply_of_rec hq _ _))

/-- RETIRE of a record that is not SPARING: its slot, if it has one, becomes FREE. -/
theorem State.retire_not_sparing (hst : r.state ≠ .sparing) (n : Nat) :
    s.retire ch n r = (s.retireSlot ch n).modRec ch n Record.retire := by
  unfold State.retire State.retireCancel
  rw [if_neg hst]

/-- On the records of a key that all have no slot fields, RETIRE changes the state and the poison set alone. -/
theorem State.TableSound.modRec_congr (hs : s.TableSound) {n : Nat} (hr : s.rec? ch n = some r) {f g : Record → Record}
    (h : f r = g r) : s.modRec ch n f = s.modRec ch n g := by
  obtain ⟨hmem, hk⟩ := findRec_some hr
  have ht : updateRec s.table { channel := ch, line := n } f = updateRec s.table { channel := ch, line := n } g := by
    unfold updateRec
    refine List.map_congr_left fun x hx => ?_
    split
    · next hxk => rw [hs.unique hx hmem (hxk.trans hk.symm), h]
    · rfl
  unfold State.modRec
  rw [ht]

end

section
variable {s : State} {ch : ChanId} {n : Nat} {m : Migration} {r : Record}

/-- RETIRE of the record that the Migration Unit works on ends the migration, and then frees the record's spare slot. -/
theorem State.retire_sparing (hst : r.state = .sparing) :
    s.retire ch n r = ((s.cancelMigration ch true).retireSlot ch n).modRec ch n Record.retire := by
  unfold State.retire State.retireCancel
  rw [if_pos hst]

theorem State.retireSlot_onlyChannel (t : State) (ch : ChanId) (n : Nat) :
    t.OnlyChannel (t.retireSlot ch n) ch ∧ (t.retireSlot ch n).causes = t.causes := by
  unfold State.retireSlot
  split
  · exact ⟨State.onlyChannel_modChan _ _ _, rfl⟩
  · exact ⟨.refl _ _, rfl⟩

theorem State.retire_onlyChannel (s : State) (ch : ChanId) (n : Nat) (r : Record) :
    s.OnlyChannel (s.retire ch n r) ch ∧ (s.retire ch n r).causes = s.causes := by
  have hcancel : s.OnlyChannel (s.retireCancel ch r) ch ∧ (s.retireCancel ch r).causes = s.causes := by
    unfold State.retireCancel
    split
    · exact s.cancelMigration_onlyChannel ch true
    · exact ⟨.refl _ _, rfl⟩
  have hslot := (s.retireCancel ch r).retireSlot_onlyChannel ch n
  exact ⟨(hcancel.1.trans hslot.1).trans (State.onlyChannel_modRec _ _ _ _ _), hslot.2.trans hcancel.2⟩

theorem State.retireSlot_chan {t : State} (h : t.rec? ch n = some r) :
    (t.retireSlot ch n).chan ch = match r.spareSlot with
      | some i => (t.chan ch).setSlot i .free
      | none => t.chan ch := by
  cases hs : r.spareSlot with
  | some i => rw [State.retireSlot_some h hs, State.chan_modChan_same]
  | none => rw [State.retireSlot_none h hs]

theorem Record.retire_leaveSparing (r : Record) : (r.leaveSparing true).retire = { r with
    state := .retired, poison := 0, spareSlot := none, targetSlot := none, priorState := none, hold := true } := by
  unfold Record.leaveSparing Record.retire
  rw [Bool.or_true]

/-- The record of the migration's line is the SPARING one (R29). -/
theorem State.SparingSound.migration_line (hs : s.SparingSound) (hr : s.rec? ch n = some r) (hst : r.state = .sparing)
    (hm : (s.chan ch).migration = some m) : m.line = n := by
  obtain ⟨hmem, hk⟩ := findRec_some hr
  have h := (hs.idle_of hmem).mp hst
  rw [hk, hm] at h
  exact Option.some.inj h

/-- The channel once RETIRE has ended the migration of its SPARING record and freed the record's spare slot (R44). -/
theorem State.retireSlot_cancelled (hm : (s.chan ch).migration = some m) (hline : m.line = n)
    (hr : s.rec? ch n = some r) (d : Channel) (hd : d = ((s.cancelMigration ch true).retireSlot ch n).chan ch) :
    (r.spareSlot = none → (s.chan ch).Drops d (s.chan ch).demandCount (WbEntry.atSlot m.target)) ∧
    (∀ i, r.spareSlot = some i → ∃ c : Channel,
      (s.chan ch).Drops c (s.chan ch).demandCount (WbEntry.atSlot m.target) ∧ c.Drops d c.demandCount (WbEntry.atSlot i)) ∧
    d = { s.chan ch with
      migration := none, exhausted := false
      slots := (match r.spareSlot with
        | some i => ((s.chan ch).slots.set m.target.val .free).set i.val .free
        | none => (s.chan ch).slots.set m.target.val .free)
      flights := (match r.spareSlot with
        | some i => markMoved i (markMoved m.target (markLate (s.chan ch).flights))
        | none => markMoved m.target (markLate (s.chan ch).flights))
      wbq := d.wbq, demandCount := d.demandCount
      patrol := { (s.chan ch).patrol with held := d.patrol.held } } := by
  obtain ⟨hrec, -⟩ := State.cancelMigration_rec hm true
  rw [hline, hr, Option.map_some] at hrec
  rw [State.retireSlot_chan hrec, show (r.leaveSparing true).spareSlot = r.spareSlot from rfl] at hd
  obtain ⟨hdrops, hchan⟩ := State.cancelMigration_spec s ch m true hm _ rfl
  cases hsp : r.spareSlot with
  | none =>
    rw [hsp] at hd
    subst hd
    exact ⟨fun _ => hdrops, nofun, hchan⟩
  | some i =>
    rw [hsp] at hd
    obtain ⟨hset, hsetDrops⟩ := Channel.setSlot_spec ((s.cancelMigration ch true).chan ch) i .free
    dsimp only at hd
    rw [← hd] at hset hsetDrops
    refine ⟨nofun, fun j hj => ⟨_, hdrops, Option.some.inj hj ▸ hsetDrops (by decide)⟩, hset.trans ?_⟩
    conv_lhs => rw [hchan]

end

/-- Settles O24: one record state after another; the migration of a SPARING one ends first. -/
theorem retireFreezesRecord : Obligations.RetireFreezesRecord := by
  intro s e ch line r hready hs hr
  obtain ⟨hst, hwhole, -⟩ := State.sparingSound_iff.mp hs
  obtain ⟨hmem, hk⟩ := findRec_some hr
  have hw := hwhole r hmem
  refine ⟨fun h => ?_, fun h => ?_, fun i h hi => ?_, fun m h hm => ?_⟩
  · exact State.answer_plain hready ((withRecord_some hr _).trans ((if_pos h).trans (recordReply_of_rec hr _ _)))
  · have hns : r.state ≠ .sparing := by rcases h with h | h <;> (rw [h]; decide)
    have hnr : r.state ≠ .retired := by rcases h with h | h <;> (rw [h]; decide)
    have hnd : r.state ≠ .spared := by rcases h with h | h <;> (rw [h]; decide)
    obtain ⟨ht, hp, hspare⟩ := hw.not_sparing hns
    have hsp : r.spareSlot = none := Option.not_isSome_iff_eq_none.mp (hnd ∘ hspare.mp)
    have hq : r.retire = { r with state := .retired, poison := 0 } := by
      unfold Record.retire
      rw [ht, hp, hsp]
    have hstate : s.retire ch line.toNat r =
        s.modRec ch line.toNat (fun x => { x with state := .retired, poison := 0 }) := by
      rw [State.retire_not_sparing hns, State.retireSlot_none hr hsp]
      exact hst.modRec_congr hr hq
    have hreply := retireReply_taken hr hnr (q := r.retire) (by rw [State.retire_not_sparing hns]; exact State.retire_rec hr)
    rw [hstate, hq] at hreply
    refine State.answer_plain hready (hreply.trans ?_)
    rw [if_neg (by simp [Record.retireFrees, hns, hnd])]
  · have hns : r.state ≠ .sparing := by rw [h]; decide
    have hnr : r.state ≠ .retired := by rw [h]; decide
    obtain ⟨ht, hp, -⟩ := hw.not_sparing hns
    have hq : r.retire = { r with state := .retired, poison := 0, spareSlot := none } := by
      unfold Record.retire
      rw [ht, hp]
    have hstate : s.retire ch line.toNat r = (s.modChan ch (fun c => c.setSlot i .free)).modRec ch line.toNat
        (fun x => { x with state := .retired, poison := 0, spareSlot := none }) := by
      rw [State.retire_not_sparing hns, State.retireSlot_some hr hi]
      exact State.TableSound.modRec_congr (s := s.modChan ch (fun c => c.setSlot i .free)) hst hr hq
    have hreply := retireReply_taken hr hnr (q := r.retire) (by rw [State.retire_not_sparing hns]; exact State.retire_rec hr)
    rw [hstate, hq, if_pos (by simp [Record.retireFrees, h])] at hreply
    obtain ⟨hchan, hdrops⟩ := Channel.setSlot_spec (s.chan ch) i .free
    have hc : ((s.modChan ch (fun c => c.setSlot i .free)).chan ch) = (s.chan ch).setSlot i .free :=
      State.chan_modChan_same _ _ _
    refine ⟨_, State.answer_select hready hreply, rfl,
      fun c hc => State.chan_modChan_of_ne _ _ _ (Channel.setSlot · i .free) hc, ?_, ?_⟩
    · rw [State.chan_withAnswer, State.chan_modRec, hc]
      exact hdrops (by decide)
    · rw [State.chan_withAnswer, State.chan_modRec, hc]
      exact hchan
  · have hline := hs.migration_line hr h hm
    obtain ⟨hrec, hothers⟩ := State.cancelMigration_rec hm true
    rw [hline] at hrec hothers
    rw [hr, Option.map_some] at hrec
    obtain ⟨hnone, hsome, hchan⟩ := State.retireSlot_cancelled hm hline hr _ rfl
    have hretired := State.retire_rec hrec
    have hreply := retireReply_taken hr (by rw [h]; decide) (q := (r.leaveSparing true).retire)
      (by rw [State.retire_sparing h]; exact hretired)
    rw [if_pos (by simp [Record.retireFrees, h])] at hreply
    obtain ⟨honly, hcauses⟩ := s.retire_onlyChannel ch line.toNat r
    have hframe := honly.frame hcauses
    rw [State.retire_sparing h] at hreply honly hframe
    refine ⟨_, State.answer_select hready hreply, ?_, ?_, fun k hk => ?_, honly.2, hnone, hsome, hchan⟩
    · rw [← Record.retire_leaveSparing]
      exact hretired
    · show _ = State.withAnswer _ s e 0x15 .ok (State.readout
        (((s.cancelMigration ch true).retireSlot ch line.toNat).modRec ch line.toNat Record.retire) ch line.toNat)
      rw [State.readout_of_rec hretired]
      conv_lhs => rw [hframe]
      rfl
    · refine (findRec_updateRec_ne (f := Record.retire) (fun _ => rfl) hk).trans ?_
      rw [State.retireSlot_table]
      exact hothers k hk

end Sys2Proof.Machine
end

section
/-! SUPPORT. The commands that change a channel's state, the probe, and the issue of reads (R20, R21, R74 to R77, R81, R97). -/

namespace Sys2Proof.Machine

/-! ### CHANNEL_FILL, CHANNEL_ONLINE and CHANNEL_OFFLINE -/

section
variable {s : State} {ch : ChanId}

theorem State.setChannel_self {st : ChannelState} (h : (s.chan ch).state = st) : s.setChannel ch st = s := by
  subst h
  exact State.modChan_eq_self rfl

/-- The held offers are offered to the emptied queue, and the first four of them join it (R74, R114). -/
theorem State.startFill_eq (hpair : (s.chan ch).patrol.held.Pairwise (fun a b => a.same b = false)) :
    s.startFill ch = { (s.modChan ch (fun c =>
        { c with
          state := .initializing, fillProgress := 0, wbq := c.patrol.held.take 4, demandCount := 0
          patrol := { c.patrol with held := c.patrol.held.drop 4 } })) with
        table := s.table.map (fun r => if r.key.channel = ch then { r with poison := 0 } else r) } := by
  have hoffer := offerHeld_distinct [] (s.chan ch).patrol.held hpair (Nat.zero_le _)
  have hchan : s.modChan ch (fun c => { c.emptyWbq with state := .initializing, fillProgress := 0 }) =
      s.modChan ch (fun c => { c with
        state := .initializing, fillProgress := 0, wbq := c.patrol.held.take 4, demandCount := 0
        patrol := { c.patrol with held := c.patrol.held.drop 4 } }) := by
    refine State.modChan_congr ?_
    unfold Channel.emptyWbq Channel.reoffer Channel.setWbq
    rw [hoffer]
    rfl
  unfold State.startFill
  rw [hchan]
  rfl

theorem channelReadout_filling {c : Channel} (h : c.state = .initializing) (h0 : c.fillProgress = 0) :
    channelReadout c = 1#8 ++ 0#152 := by
  unfold channelReadout
  rw [h, h0]
  decide

theorem channelOfflineReply_of {ch : ChanId} (h : (s.chan ch).state = .online → (s.chan ch).atRest = true) :
    channelOfflineReply (BitVec.ofNat 8 ch.val) s = channelReply (s.setChannel ch .disabled) ch .ok := by
  unfold channelOfflineReply
  rw [onChannel_ofNat]
  cases hst : (s.chan ch).state with
  | disabled => rw [State.setChannel_self hst]
  | initializing => rfl
  | online => exact if_pos (h hst)

end

/-- Settles O32: the checks in order, and what each command leaves. -/
theorem channelStateCommands : Obligations.ChannelStateCommands := by
  intro s e ch hready
  refine ⟨fun h => ?_, fun h h0 => ?_, fun h h0 hpair => ?_, fun h0 => ?_, fun h0 h => ?_, fun h0 h => ?_, fun h => ?_,
    fun h hbusy => ?_⟩
  · exact State.answer_refuse hready ((onChannel_ofNat _ _ _).trans (if_pos h))
  · exact State.answer_refuse hready ((onChannel_ofNat _ _ _).trans ((if_neg (not_not_intro h)).trans (if_pos h0)))
  · refine State.answer_plain hready ((onChannel_ofNat s ch _).trans ((if_neg (not_not_intro h)).trans
      ((if_neg h0).trans ?_)))
    have hpayload : channelReadout ((s.startFill ch).chan ch) = 1#8 ++ 0#152 := by
      show channelReadout ((s.modChan ch (fun c =>
        { c.emptyWbq with state := .initializing, fillProgress := 0 })).chan ch) = _
      rw [State.chan_modChan_same]
      exact channelReadout_filling rfl rfl
    unfold channelReply
    rw [hpayload, State.startFill_eq hpair]
  · exact State.answer_refuse hready ((onChannel_ofNat _ _ _).trans (if_pos h0))
  · exact State.answer_refuse hready ((onChannel_ofNat _ _ _).trans ((if_neg h0).trans (if_pos h)))
  · refine State.answer_plain hready ((onChannel_ofNat _ _ _).trans ((if_neg h0).trans ((if_neg (not_not_intro h)).trans ?_)))
    unfold channelReply State.setChannel channelReadout
    rw [State.chan_modChan_same]
    rfl
  · have hrest : (s.chan ch).state = .online → (s.chan ch).atRest = true := fun ho =>
      (Channel.atRest_iff _).mpr (h.resolve_left (not_not_intro ho))
    refine State.answer_plain hready ((channelOfflineReply_of hrest).trans ?_)
    unfold channelReply State.setChannel channelReadout
    rw [State.chan_modChan_same]
    rfl
  · refine State.answer_refuse hready ((onChannel_ofNat _ _ _).trans ?_)
    rw [h]
    exact if_neg (by rw [(Channel.atRest_false_iff _).mpr hbusy]; decide)

/-! ### The probe and the issue of reads -/

section
variable {s : State} {ch : ChanId} {n : Nat} {r : Record}

theorem State.probe_of_none (h : s.rec? ch n = none) :
    s.probe ch n = { loc := .line n, sparing := false, second := none, retry := 0, count := (s.chan ch).demandCount } := by
  unfold State.probe
  rw [h]

theorem State.probe_of_not_sparing (h : s.rec? ch n = some r) (hst : r.state ≠ .sparing) :
    s.probe ch n = { loc := r.location, sparing := false, second := none, retry := 0
                     count := (s.chan ch).demandCount } := by
  unfold State.probe
  rw [h]
  exact if_neg hst

theorem State.probe_of_sparing (h : s.rec? ch n = some r) (hst : r.state = .sparing) :
    (s.probe ch n).loc = r.location ∧ (s.probe ch n).sparing = true ∧
      ∀ m, (s.chan ch).migration = some m → (s.probe ch n).retry = m.retry ∧
        (s.probe ch n).second = if m.copyWritten = true then r.targetSlot else none := by
  unfold State.probe
  rw [h]
  dsimp only
  rw [if_pos hst]
  cases hm : (s.chan ch).migration with
  | none => exact ⟨rfl, rfl, nofun⟩
  | some m => exact ⟨rfl, rfl, fun m' hm' => by cases hm'; exact ⟨rfl, rfl⟩⟩

theorem Record.location_of_unspared (h : r.state = .watch ∨ r.state = .hot ∨ r.state = .retired) :
    r.location = .line r.key.line := by
  unfold Record.location
  rcases h with h | h | h <;> rw [h]

theorem Record.location_of_spared {i : SlotId} (h : r.state = .spared) (hs : r.spareSlot = some i) :
    r.location = .slot i := by
  unfold Record.location
  rw [h, hs]

end

/-- What the probe of a line finds, by the line's record (R20, R21). -/
theorem State.probe_spec (s : State) (ch : ChanId) (n : Nat) (p : Probe) (hp : p = s.probe ch n) :
    (s.rec? ch n = none → p.loc = .line n ∧ p.sparing = false ∧ p.second = none) ∧
    p.count = (s.chan ch).demandCount ∧
    ∀ r : Record, s.rec? ch n = some r →
      (r.state = .watch ∨ r.state = .hot ∨ r.state = .retired →
        p.loc = .line n ∧ p.sparing = false ∧ p.second = none) ∧
      (∀ i : SlotId, r.state = .spared → r.spareSlot = some i →
        p.loc = .slot i ∧ p.sparing = false ∧ p.second = none) ∧
      (r.state = .sparing → p.sparing = true ∧
        (∀ i : SlotId, r.spareSlot = some i → p.loc = .slot i) ∧ (r.spareSlot = none → p.loc = .line n) ∧
        (∀ m : Migration, (s.chan ch).migration = some m → p.retry = m.retry ∧
          p.second = if m.copyWritten = true then r.targetSlot else none)) := by
  subst hp
  refine ⟨fun h => ?_, State.probe_count s ch n, fun r hr => ⟨fun hst => ?_, fun i hst hi => ?_, fun hst => ?_⟩⟩
  · rw [State.probe_of_none h]
    exact ⟨rfl, rfl, rfl⟩
  · have hline : r.key.line = n := by rw [(findRec_some hr).2]
    rw [State.probe_of_not_sparing hr (by rcases hst with h | h | h <;> (rw [h]; decide))]
    exact ⟨hline ▸ Record.location_of_unspared hst, rfl, rfl⟩
  · rw [State.probe_of_not_sparing hr (by rw [hst]; decide)]
    exact ⟨Record.location_of_spared hst hi, rfl, rfl⟩
  · have hline : r.key.line = n := by rw [(findRec_some hr).2]
    obtain ⟨hloc, hsp, hm⟩ := State.probe_of_sparing hr hst
    rw [Record.location_of_sparing hst] at hloc
    exact ⟨hsp, fun i hi => by rw [hloc, hi], fun hno => by rw [hloc, hno, hline], hm⟩

theorem Channel.countDemand_eq {c : Channel} {k : Nat} (hk : k = if c.wbq = [] then 0 else min 8 (c.demandCount + 1)) :
    c.countDemand = { c with demandCount := k } := by
  unfold Channel.countDemand
  rw [hk]
  simp only [List.isEmpty_iff]

/-- The codewords expected POISON by a verify read are those held as POISON (R159). -/
theorem Migration.expected_eq (m : Migration) : heldPoison (m.held.getD heldUnread) = cwSetOf (fun i =>
    match m.held with
    | some h => decide ((h.get i).content = .poison)
    | none => false) := by
  unfold heldPoison
  congr 1
  funext i
  cases m.held with
  | none => simp [heldUnread, Vector.get_eq_getElem]
  | some h => simp [beq_eq_decide]

/-- Settles O41: the probe, and the four reads that the arbiter may choose. -/
theorem readsAreIssued : Obligations.ReadsAreIssued := by
  refine ⟨State.probe_spec, fun s ch q m k hk => ⟨fun hop hq hin => ?_, fun hop hq hin => ?_, fun hop hm hin => ?_,
    fun hop hm hin => ?_⟩⟩
  · show execDemandReadIssue ch s = _
    unfold execDemandReadIssue
    rw [hop, hq]
    dsimp only
    rw [State.atLines_next (by simpa using hin)]
    refine congrArg _ (State.modChan_congr ?_)
    rw [Channel.countDemand_eq hk]
    rfl
  · show execMergeReadIssue ch s = _
    unfold execMergeReadIssue
    rw [hop, hq]
    dsimp only
    rw [State.atLines_next (by simpa using hin)]
    refine congrArg _ (State.modChan_congr ?_)
    rw [Channel.countDemand_eq hk]
    rfl
  · show execCopyReadIssue ch s = _
    unfold execCopyReadIssue
    rw [hop, hm]
    dsimp only
    rw [State.atLines_next (by simpa using hin)]
    rfl
  · show execVerifyReadIssue ch s = _
    unfold execVerifyReadIssue
    rw [hop, hm]
    dsimp only
    rw [State.atLines_next (by simpa using hin), Migration.expected_eq]
    rfl

end Sys2Proof.Machine
end

section
/-! SUPPORT. The poison writes owed and the offers that a decode makes, and the decode of a demand read (R82, R83, R92, R142). -/

namespace Sys2Proof.Machine

/-! ### Poison writes owed and offers -/

section
variable (reps : Vector Report 8)

theorem ueSet_eq : ueSet reps = cwSetOf (fun i => decide ((reps.get i).verdict = .uncorrectable)) := by
  unfold ueSet cwsWhere
  congr 1

theorem ueSet_eq_zero : ueSet reps = 0 ↔ ¬ ∃ i : CwIndex, (reps.get i).verdict = .uncorrectable := by
  rw [ueSet_eq, cwSetOf_eq_zero]
  simp

/-- A poison write becomes owed for the codewords of a test, if there are any (R83). -/
theorem Channel.owe_cwSetOf (c : Channel) (n : Nat) (loc : Loc) (o : OwedBy) (p : CwIndex → Bool) :
    (c.owe n loc (cwSetOf p) o).owed = c.owed ++
      if ∃ i, p i = true then [{ line := n, loc := loc, cws := cwSetOf p, owner := o }] else [] := by
  unfold Channel.owe
  by_cases h : ∃ i, p i = true
  · rw [if_neg fun e => ?_, if_pos h]
    obtain ⟨i, hi⟩ := h
    rw [(cwSetOf_eq_zero p).mp e i] at hi
    cases hi
  · have hno : ∀ i, p i = false := fun i => Bool.eq_false_iff.mpr fun hi => h ⟨i, hi⟩
    rw [if_pos ((cwSetOf_eq_zero p).mpr hno), if_neg h, List.append_nil]

theorem offersOf_all (loc : Loc) : offersOf loc reps (fun _ => true) = (List.finRange 8).filterMap (fun i =>
    (reps.get i).fixed.map (fun w => ({ loc := loc, cw := i, content := w } : WbEntry))) := rfl

theorem anyPoison_iff : anyPoison reps = true ↔ ∃ i : CwIndex, (reps.get i).verdict = .poison := by
  simp [anyPoison]

theorem readOutcome_eq : readOutcome reps =
    if ∃ i : CwIndex, (reps.get i).verdict.isLost = true then .poison
    else if ∃ i : CwIndex, (reps.get i).verdict.isCe = true then .corrected else .clean := by
  unfold readOutcome
  simp only [List.any_eq_true, List.mem_finRange, true_and]

end

/-- Offers of origin DEMAND change the Write-back Queue alone (R92). -/
theorem Channel.offerDemands_spec (es : List WbEntry) (c : Channel) :
    c.offerDemands es = { c with wbq := (c.offerDemands es).wbq } ∧ DemandOffers c.wbq es (c.offerDemands es).wbq := by
  have hwbq : ∀ (es : List WbEntry) (c : Channel),
      c.offerDemands es = { c with wbq := es.foldl (fun b e => (offerTo b e).getD b) c.wbq } := by
    intro es
    induction es with
    | nil => exact fun _ => rfl
    | cons e es ih =>
      intro c
      exact ih (c.offerDemand e)
  rw [hwbq]
  exact ⟨rfl, demandOffers es c.wbq⟩

/-! ### The decode of a demand read -/

section
variable (c : Channel) (q : QEntry) (f : Flight) (wb : Bool) (reps : Vector Report 8)

/-- A demand read's own work changes of its channel the queue, the poison writes owed and the Write-back Queue (R82, R83). -/
theorem Channel.demandDecoded_spec : c.demandDecoded q f wb reps = { c with
    queue := c.queue.map (fun x => if x.seq = q.seq then { x with stage := readStage reps } else x)
    owed := (c.demandDecoded q f wb reps).owed, wbq := (c.demandDecoded q f wb reps).wbq } := by
  unfold Channel.demandDecoded
  dsimp only
  split
  · rfl
  · have hoffer := (Channel.offerDemands_spec (if wb then offersOf f.loc reps (fun _ => true) else [])
      (c.setStage q.seq (readStage reps))).1
    generalize Channel.offerDemands _ _ = d at *
    rw [hoffer]
    unfold Channel.owe
    split <;> rfl

theorem Channel.demandDecoded_moved (h : f.moved = true) :
    (c.demandDecoded q f wb reps).owed = c.owed ∧ (c.demandDecoded q f wb reps).wbq = c.wbq := by
  unfold Channel.demandDecoded
  dsimp only
  rw [if_pos h]
  exact ⟨rfl, rfl⟩

theorem Channel.demandDecoded_still (h : f.moved = false) :
    (c.demandDecoded q f wb reps).owed = c.owed ++
      (if ∃ i : CwIndex, (reps.get i).verdict = .uncorrectable then
        [{ line := q.req.line, loc := f.loc
           cws := cwSetOf (fun i => decide ((reps.get i).verdict = .uncorrectable)), owner := .demand q.seq }]
      else []) ∧
    DemandOffers c.wbq (if wb then offersOf f.loc reps (fun _ => true) else []) (c.demandDecoded q f wb reps).wbq := by
  unfold Channel.demandDecoded
  dsimp only
  rw [if_neg (by rw [h]; decide), ueSet_eq, Channel.owe_cwSetOf, Channel.owe_wbq]
  simp only [decide_eq_true_eq]
  obtain ⟨h1, h2⟩ := Channel.offerDemands_spec (if wb then offersOf f.loc reps (fun _ => true) else [])
    (c.setStage q.seq (readStage reps))
  exact ⟨by rw [h1]; rfl, h2⟩

end

theorem DemandOffers.nil {l r : List WbEntry} (h : DemandOffers l [] r) : r = l := by cases h; rfl

theorem exec_demandReadDecode_of {s : State} {ch : ChanId} {f : Flight} {rest : List Flight} {q : QEntry}
    (upsets : LineWords) (hfl : (s.chan ch).flights = f :: rest) (hkind : f.kind = .demand q.seq)
    (hq : (s.chan ch).queue.find? (fun x => x.seq == q.seq) = some q) :
    exec (.demandReadDecode ch upsets) s = .next (s.demandDecode ch q f (reportsOf f.words upsets)) := by
  have hplace : (s.chan ch).place q.seq = some q := hq
  show execDemandReadDecode ch upsets s = _
  simp only [execDemandReadDecode, hfl, hkind, hplace]

section
variable (s : State) (ch : ChanId) (q : QEntry) (f : Flight) (reps : Vector Report 8)

/-- The state in which Capture and Alert have a demand read's events and POISON_READ (R82, R168). -/
def State.demandAlerted : State :=
  if anyPoison reps then (s.captureRead ch .demandRead q.req.line f.loc (some q.req.tag) reps).raise .poisonRead
  else s.captureRead ch .demandRead q.req.line f.loc (some q.req.tag) reps

/-- The state between a demand read's own work and its delivery. -/
def State.demandAnswered : State :=
  (s.demandAlerted ch q f reps).modChan ch (fun c =>
    c.popFlight.demandDecoded q f (s.policy (s.classOf ch q.req.line)).demandWb reps)

theorem State.demandDecode_eq :
    s.demandDecode ch q f reps = (s.demandAnswered ch q f reps).deliver ch q.req.line .demandRead reps := rfl

theorem State.demandAlerted_spec :
    (s.captureRead ch .demandRead q.req.line f.loc (some q.req.tag) reps).OnlyChannel (s.demandAlerted ch q f reps) ch ∧
      (s.demandAlerted ch q f reps).table = s.table ∧
      (∀ k : Cause, k ≠ .poisonRead → hasCause (s.demandAlerted ch q f reps).causes k =
        hasCause (s.captureRead ch .demandRead q.req.line f.loc (some q.req.tag) reps).causes k) ∧
      (hasCause (s.demandAlerted ch q f reps).causes .poisonRead =
        (hasCause s.causes .poisonRead || anyPoison reps)) ∧
      (s.demandAlerted ch q f reps).chan ch =
        (s.captureRead ch .demandRead q.req.line f.loc (some q.req.tag) reps).chan ch := by
  obtain ⟨-, ht, hc, -⟩ := State.captureRead_spec s ch .demandRead q.req.line f.loc (some q.req.tag) reps
  have hpoison := hc .poisonRead (by decide) (by decide)
  unfold State.demandAlerted
  cases anyPoison reps with
  | true =>
    refine ⟨State.onlyChannel_raise _ _ _, ht, fun k hk => ?_, ?_, rfl⟩
    · exact (hasCause_raise _ _ _).trans (by simp [hk])
    · exact (hasCause_raise _ _ _).trans (by simp)
  | false => exact ⟨.refl _ _, ht, fun _ _ => rfl, by rw [Bool.or_false]; exact hpoison, rfl⟩

theorem State.demandAnswered_chan : (s.demandAnswered ch q f reps).chan ch =
    Channel.demandDecoded
      ((s.captureRead ch .demandRead q.req.line f.loc (some q.req.tag) reps).chan ch).popFlight q f
      (s.policy (s.classOf ch q.req.line)).demandWb reps := by
  rw [State.demandAnswered, State.chan_modChan_same, (s.demandAlerted_spec ch q f reps).2.2.2.2]

theorem State.demandAnswered_frame : (s.demandAnswered ch q f reps).chan ch =
    { (s.captureRead ch .demandRead q.req.line f.loc (some q.req.tag) reps).chan ch with
      queue := ((s.demandAnswered ch q f reps).chan ch).queue, owed := ((s.demandAnswered ch q f reps).chan ch).owed
      flights := ((s.demandAnswered ch q f reps).chan ch).flights, wbq := ((s.demandAnswered ch q f reps).chan ch).wbq
      patrol := ((s.demandAnswered ch q f reps).chan ch).patrol } := by
  rw [State.demandAnswered_chan]
  have h := Channel.demandDecoded_spec
    ((s.captureRead ch .demandRead q.req.line f.loc (some q.req.tag) reps).chan ch).popFlight q f
    (s.policy (s.classOf ch q.req.line)).demandWb reps
  generalize Channel.demandDecoded _ _ _ _ _ = d at *
  rw [h]
  rfl

theorem State.demandAnswered_onlyChannel :
    (s.captureRead ch .demandRead q.req.line f.loc (some q.req.tag) reps).OnlyChannel
      (s.demandAnswered ch q f reps) ch :=
  (s.demandAlerted_spec ch q f reps).1.trans (State.onlyChannel_modChan _ _ _)

theorem State.demandDecode_frame :
    s.DecodeFrame (s.demandAnswered ch q f reps) (s.demandDecode ch q f reps) ch q.req.line [.poisonRead] := by
  obtain ⟨-, ht, hc, -, -⟩ := s.demandAlerted_spec ch q f reps
  rw [State.demandDecode_eq]
  exact State.decode_frame .demandRead q.req.line f.loc (some q.req.tag) reps _ (s.demandAnswered_onlyChannel ch q f reps)
    ht (fun k hk => hc k (by simpa using hk)) (s.demandAnswered_frame ch q f reps)

theorem State.demandDecode_delivers_handsOver :
    s.Delivers (s.demandDecode ch q f reps) ch q.req.line .demandRead reps ∧
      s.HandsOver (s.demandDecode ch q f reps) ch .demandRead q.req.line f.loc (some q.req.tag) reps := by
  obtain ⟨-, ht, hc, -, -⟩ := s.demandAlerted_spec ch q f reps
  rw [State.demandDecode_eq]
  exact State.delivers_handsOver .demandRead q.req.line f.loc (some q.req.tag) reps
    (s.demandAnswered_onlyChannel ch q f reps) ht hc (s.demandAnswered_frame ch q f reps)

theorem State.demandDecode_poisonRead :
    hasCause (s.demandDecode ch q f reps).causes .poisonRead = (hasCause s.causes .poisonRead || anyPoison reps) := by
  obtain ⟨-, d2, -, -⟩ := State.deliver_spec (s.demandAnswered ch q f reps) ch q.req.line .demandRead reps
  rw [State.demandDecode_eq, d2 .poisonRead (by decide) (by decide)]
  exact (s.demandAlerted_spec ch q f reps).2.2.2.1

end

/-- A codeword that is not CORRECTED has no corrected codeword to write back (R8). -/
theorem reportsOf_fixed_eq_none {words upsets : LineWords} {i : CwIndex}
    (h : ((reportsOf words upsets).get i).verdict = .clean) : ((reportsOf words upsets).get i).fixed = none := by
  have hget : (reportsOf words upsets).get i = report (words.get i ^^^ upsets.get i) := Vector.get_ofFn _ i
  rw [hget] at h ⊢
  unfold report at h ⊢
  dsimp only at h ⊢
  split at h
  · cases h
  · rfl

/-- A demand read whose codewords are all CLEAN owes and offers nothing. -/
theorem Channel.demandDecoded_clean {reps : Vector Report 8} (h : ∀ i : CwIndex, (reps.get i).verdict = .clean)
    (hf : ∀ i : CwIndex, (reps.get i).fixed = none) (c : Channel) (q : QEntry) (f : Flight) (wb : Bool) :
    c.demandDecoded q f wb reps = c.setStage q.seq (readStage reps) := by
  have hue : ueSet reps = 0 := (ueSet_eq_zero reps).mpr fun ⟨i, hi⟩ => by rw [h i] at hi; cases hi
  have hoff : (if wb then offersOf f.loc reps (fun _ => true) else []) = [] := by
    rw [offersOf_all, List.filterMap_eq_nil_iff.mpr fun i _ => by rw [hf i]; rfl]
    split <;> rfl
  unfold Channel.demandDecoded
  dsimp only
  rw [hue, hoff]
  split <;> rfl

/-- With no event a demand read's decode changes the queue and the reads in flight alone. -/
theorem State.demandDecode_clean {reps : Vector Report 8} (h : ∀ i : CwIndex, (reps.get i).verdict = .clean)
    (hf : ∀ i : CwIndex, (reps.get i).fixed = none) (s : State) (ch : ChanId) (q : QEntry) (f : Flight) :
    s.demandDecode ch q f reps = { s with chans := (s.demandDecode ch q f reps).chans } ∧
      (s.demandDecode ch q f reps).chan ch = { s.chan ch with
        flights := (s.chan ch).flights.tail, queue := ((s.demandDecode ch q f reps).chan ch).queue } := by
  have halert : s.demandAlerted ch q f reps = s := by
    have hno : anyPoison reps = false := Bool.eq_false_iff.mpr fun hp => by
      obtain ⟨i, hi⟩ := (anyPoison_iff reps).mp hp
      rw [h i] at hi
      cases hi
    unfold State.demandAlerted
    rw [hno, State.captureRead_clean h]
    rfl
  rw [State.demandDecode_eq, State.deliver_clean h, State.demandAnswered, halert, State.chan_modChan_same,
    Channel.demandDecoded_clean h hf]
  exact ⟨rfl, rfl⟩

/-- Settles O42: the response's contents, and the decode as a capture, its own work and a delivery. -/
theorem demandReadDecodes : Obligations.DemandReadDecodes := by
  intro s ch upsets f rest q reps hfl hkind hq hreps
  have frame := s.demandDecode_frame ch q f reps
  obtain ⟨hdel, hhand⟩ := s.demandDecode_delivers_handsOver ch q f reps
  have hchan := s.demandAnswered_chan ch q f reps
  obtain ⟨-, -, -, hcap⟩ := State.captureRead_spec s ch .demandRead q.req.line f.loc (some q.req.tag) reps
  have hspec := Channel.demandDecoded_spec
    ((s.captureRead ch .demandRead q.req.line f.loc (some q.req.tag) reps).chan ch).popFlight q f
    (s.policy (s.classOf ch q.req.line)).demandWb reps
  have hexec : exec (.demandReadDecode ch upsets) s = .next (s.demandDecode ch q f reps) := by
    rw [hreps]
    exact exec_demandReadDecode_of upsets hfl hkind hq
  refine ⟨s.demandDecode ch q f reps, hexec, frame.onlyChannel,
    ⟨readOutcome reps, lineOf (fun i => responseData (reps.get i)), cwsWhere reps Verdict.isLost, ?queue, fun i => ?mask,
      fun i => ?data, readOutcome_eq reps⟩, ?poison, ?flights, frame.kept, ?patrol, frame.demandCount, frame.table, hdel,
    hhand, ?causes, ?clean, ?moved, ?still⟩
  case queue =>
    rw [frame.queue, hchan, hspec, hcap]
    rfl
  case mask => exact CwSet.has_cwSetOf _ i
  case data => exact LineData.codeword_lineOf _ i
  case poison =>
    rw [State.demandDecode_poisonRead, Bool.or_eq_true, anyPoison_iff]
  case flights =>
    rw [frame.flights, hchan, hspec, hcap]
    show List.map _ (s.chan ch).flights.tail = _
    rw [hfl, List.tail_cons]
  case patrol =>
    rw [frame.patrol, hchan, hspec, hcap]
    rfl
  case causes =>
    intro k hk
    refine frame.causes k fun h => hk ?_
    simp only [List.mem_cons, List.not_mem_nil, or_false] at h ⊢
    tauto
  case clean =>
    intro h
    obtain ⟨hs, hc⟩ := State.demandDecode_clean h (fun i => by
      have hi := h i
      rw [hreps] at hi ⊢
      exact reportsOf_fixed_eq_none hi) s ch q f
    rw [hfl, List.tail_cons] at hc
    exact ⟨hs, hc⟩
  case moved =>
    intro hmoved
    obtain ⟨h1, h2⟩ := Channel.demandDecoded_moved
      ((s.captureRead ch .demandRead q.req.line f.loc (some q.req.tag) reps).chan ch).popFlight q f
      (s.policy (s.classOf ch q.req.line)).demandWb reps hmoved
    rw [frame.owed, frame.wbq, hchan, h1, h2, hcap]
    exact ⟨rfl, rfl⟩
  case still =>
    intro hmoved
    obtain ⟨h1, h2⟩ := Channel.demandDecoded_still
      ((s.captureRead ch .demandRead q.req.line f.loc (some q.req.tag) reps).chan ch).popFlight q f
      (s.policy (s.classOf ch q.req.line)).demandWb reps hmoved
    rw [← hchan] at h1 h2
    rw [frame.owed, frame.wbq, h1]
    rw [hcap] at h2 ⊢
    refine ⟨rfl, fun hwb => ?_, fun hwb => ?_⟩
    · rw [hwb] at h2
      exact h2.nil
    · rw [hwb] at h2
      exact h2

end Sys2Proof.Machine
end

section
/-! SUPPORT. The decode of a patrol or focus read (R110 to R117). -/

namespace Sys2Proof.Machine

section
variable (c : Channel) (r : PatrolRead) (f : Flight) (retired : Bool) (reps : Vector Report 8)

/-- The codewords of a patrol read whose corrections and poison are let through (R111, R112). -/
def Channel.patrolTakes (i : CwIndex) : Bool := c.patrolAdmits f retired && !CwSet.has r.marks i

/-- A patrol read's own work changes of its channel the poison writes owed, the Write-back Queue, and of the Patrol Engine the
held offers and the current read (R111, R112). -/
theorem Channel.patrolDecoded_spec : c.patrolDecoded r f retired reps = { c with
    owed := (c.patrolDecoded r f retired reps).owed, wbq := (c.patrolDecoded r f retired reps).wbq
    patrol := { c.patrol with
      held := (c.patrolDecoded r f retired reps).patrol.held, current := some { r with decoded := true } } } := by
  unfold Channel.patrolDecoded Channel.owe
  dsimp only
  split <;> rfl

theorem Channel.patrolDecoded_owed : (c.patrolDecoded r f retired reps).owed = c.owed ++
    if ∃ i, (c.patrolTakes r f retired i && (reps.get i).verdict == .uncorrectable) = true then
      [{ line := r.line, loc := f.loc
         cws := cwSetOf (fun i => c.patrolTakes r f retired i && (reps.get i).verdict == .uncorrectable)
         owner := .patrol }]
    else [] := by
  unfold Channel.patrolDecoded
  rw [Channel.owe_cwSetOf]
  rfl

theorem Channel.patrolDecoded_offers (h : c.patrol.held = []) :
    PatrolOffers c.wbq (offersOf f.loc reps (c.patrolTakes r f retired)) (c.patrolDecoded r f retired reps).wbq
      (c.patrolDecoded r f retired reps).patrol.held := by
  have hoff := patrolOffers (offersOf f.loc reps (c.patrolTakes r f retired)) c.wbq
  unfold Channel.patrolDecoded
  rw [Channel.owe_wbq, Channel.owe_patrol]
  show PatrolOffers _ _ (offerHeld c.wbq (c.patrol.held ++ _)).1 (offerHeld c.wbq (c.patrol.held ++ _)).2
  rw [h, List.nil_append]
  exact hoff

end

/-- Whether a patrol read is let through as a whole, by what it found (R111, R112). -/
theorem Channel.patrolAdmits_eq (s : State) (ch : ChanId) (r : PatrolRead) (f : Flight) :
    (s.chan ch).patrolAdmits f (s.lineRetired ch r.line) =
      (!f.moved && decide (∀ x, s.rec? ch r.line = some x → x.state ≠ .retired) &&
        (match f.loc with | .slot i => decide ((s.chan ch).slots.get i = .allocated) | .line _ => true)) := by
  have hret : (!s.lineRetired ch r.line) = decide (∀ x, s.rec? ch r.line = some x → x.state ≠ .retired) := by
    unfold State.lineRetired
    cases s.rec? ch r.line with
    | none => simp
    | some x => simp
  unfold Channel.patrolAdmits
  rw [hret, Bool.and_comm (!f.moved)]
  cases f.loc with
  | slot i =>
    dsimp only
    rw [beq_eq_decide]
  | line n => rfl

theorem exec_patrolReadDecode_of {s : State} {ch : ChanId} {f : Flight} {rest : List Flight} {r : PatrolRead}
    (upsets : LineWords) (hfl : (s.chan ch).flights = f :: rest) (hkind : f.kind = .patrol)
    (hcur : (s.chan ch).patrol.current = some r) :
    exec (.patrolReadDecode ch upsets) s = .next (s.patrolDecode ch r f (reportsOf f.words upsets)) := by
  show execPatrolReadDecode ch upsets s = _
  simp only [execPatrolReadDecode, hfl, hkind, hcur]

section
variable (s : State) (ch : ChanId) (r : PatrolRead) (f : Flight) (reps : Vector Report 8)

/-- The state between a patrol read's own work and its delivery. -/
def State.patrolTaken : State :=
  (s.captureRead ch r.kind.source r.line f.loc none reps).modChan ch (fun c =>
    c.popFlight.patrolDecoded r f (s.lineRetired ch r.line) reps)

theorem State.patrolDecode_eq :
    s.patrolDecode ch r f reps = (s.patrolTaken ch r f reps).deliver ch r.line r.kind.source reps := rfl

theorem State.patrolTaken_chan : (s.patrolTaken ch r f reps).chan ch = Channel.patrolDecoded
    ((s.captureRead ch r.kind.source r.line f.loc none reps).chan ch).popFlight r f (s.lineRetired ch r.line) reps := by
  rw [State.patrolTaken, State.chan_modChan_same]

theorem State.patrolTaken_frame : (s.patrolTaken ch r f reps).chan ch =
    { (s.captureRead ch r.kind.source r.line f.loc none reps).chan ch with
      queue := ((s.patrolTaken ch r f reps).chan ch).queue, owed := ((s.patrolTaken ch r f reps).chan ch).owed
      flights := ((s.patrolTaken ch r f reps).chan ch).flights, wbq := ((s.patrolTaken ch r f reps).chan ch).wbq
      patrol := ((s.patrolTaken ch r f reps).chan ch).patrol } := by
  rw [State.patrolTaken_chan]
  have h := Channel.patrolDecoded_spec
    ((s.captureRead ch r.kind.source r.line f.loc none reps).chan ch).popFlight r f (s.lineRetired ch r.line) reps
  generalize Channel.patrolDecoded _ _ _ _ _ = d at *
  rw [h]
  rfl

theorem State.patrolTaken_table : (s.patrolTaken ch r f reps).table = s.table :=
  (State.captureRead_spec s ch r.kind.source r.line f.loc none reps).2.1

theorem State.patrolDecode_frame :
    s.DecodeFrame (s.patrolTaken ch r f reps) (s.patrolDecode ch r f reps) ch r.line [] := by
  rw [State.patrolDecode_eq]
  exact State.decode_frame r.kind.source r.line f.loc none reps _ (State.onlyChannel_modChan _ _ _)
    (s.patrolTaken_table ch r f reps) (fun _ _ => rfl) (s.patrolTaken_frame ch r f reps)

theorem State.patrolDecode_delivers_handsOver :
    s.Delivers (s.patrolDecode ch r f reps) ch r.line r.kind.source reps ∧
      s.HandsOver (s.patrolDecode ch r f reps) ch r.kind.source r.line f.loc none reps := by
  rw [State.patrolDecode_eq]
  exact State.delivers_handsOver r.kind.source r.line f.loc none reps (State.onlyChannel_modChan _ _ _)
    (s.patrolTaken_table ch r f reps) (fun _ _ => rfl) (s.patrolTaken_frame ch r f reps)

end

/-- A patrol read whose codewords are all CLEAN owes and offers nothing. -/
theorem Channel.patrolDecoded_clean {reps : Vector Report 8} (h : ∀ i : CwIndex, (reps.get i).verdict = .clean)
    (hf : ∀ i : CwIndex, (reps.get i).fixed = none) {c : Channel} (hheld : c.patrol.held = []) (r : PatrolRead)
    (f : Flight) (retired : Bool) : c.patrolDecoded r f retired reps =
      { c with patrol := { c.patrol with current := some { r with decoded := true } } } := by
  have howe : cwSetOf (fun i => (c.patrolAdmits f retired && !CwSet.has r.marks i) &&
      (reps.get i).verdict == .uncorrectable) = 0 :=
    (cwSetOf_eq_zero _).mpr fun i => by rw [h i]; simp
  have hoff : offersOf f.loc reps (fun i => c.patrolAdmits f retired && !CwSet.has r.marks i) = [] := by
    unfold offersOf
    refine List.filterMap_eq_nil_iff.mpr fun i _ => ?_
    rw [hf i]
    split <;> rfl
  unfold Channel.patrolDecoded
  dsimp only
  rw [howe, hoff]
  unfold Channel.offerPatrol Channel.reoffer Channel.modPatrol Channel.owe
  dsimp only
  rw [hheld, List.append_nil]
  rfl

/-- With no event a patrol read's decode changes the reads in flight and the Patrol Engine's current read alone. -/
theorem State.patrolDecode_clean {reps : Vector Report 8} (h : ∀ i : CwIndex, (reps.get i).verdict = .clean)
    (hf : ∀ i : CwIndex, (reps.get i).fixed = none) (s : State) (ch : ChanId) (r : PatrolRead) (f : Flight)
    (hheld : (s.chan ch).patrol.held = []) :
    s.patrolDecode ch r f reps = { s with chans := (s.patrolDecode ch r f reps).chans } ∧
      (s.patrolDecode ch r f reps).chan ch = { s.chan ch with
        flights := (s.chan ch).flights.tail
        patrol := { (s.chan ch).patrol with current := some { r with decoded := true } } } := by
  rw [State.patrolDecode_eq, State.deliver_clean h, State.patrolTaken, State.captureRead_clean h,
    State.chan_modChan_same, Channel.patrolDecoded_clean (c := (s.chan ch).popFlight) h hf hheld]
  exact ⟨rfl, rfl⟩

/-- The poison write that a patrol read owes, by whether it is let through (R112). -/
theorem patrolOwed_eq (admits : Bool) (r : PatrolRead) (f : Flight) (reps : Vector Report 8) :
    (if ∃ i, (admits && !CwSet.has r.marks i && (reps.get i).verdict == .uncorrectable) = true then
      [({ line := r.line, loc := f.loc
          cws := cwSetOf (fun i => admits && !CwSet.has r.marks i && (reps.get i).verdict == .uncorrectable)
          owner := .patrol } : Owed)]
    else []) =
    if admits = true ∧ ∃ i : CwIndex, (reps.get i).verdict = .uncorrectable ∧ CwSet.has r.marks i = false then
      [{ line := r.line, loc := f.loc
         cws := cwSetOf (fun i => decide ((reps.get i).verdict = .uncorrectable) && !CwSet.has r.marks i)
         owner := .patrol }]
    else [] := by
  cases admits with
  | false => simp
  | true =>
    have hset : ∀ i, (true && !CwSet.has r.marks i && (reps.get i).verdict == .uncorrectable) =
        (decide ((reps.get i).verdict = .uncorrectable) && !CwSet.has r.marks i) := fun i => by
      rw [Bool.true_and, Bool.and_comm, beq_eq_decide]
    simp only [hset]
    simp

/-- The offers of a patrol read, by whether it is let through (R111). -/
theorem patrolOffersOf_eq (admits : Bool) (r : PatrolRead) (f : Flight) (reps : Vector Report 8) :
    offersOf f.loc reps (fun i => admits && !CwSet.has r.marks i) =
      if admits then (List.finRange 8).filterMap (fun i =>
        if CwSet.has r.marks i then none else (reps.get i).fixed.map (fun w =>
          ({ loc := f.loc, cw := i, content := w } : WbEntry))) else [] := by
  unfold offersOf
  cases admits with
  | false => simp
  | true =>
    rw [if_pos rfl]
    refine List.filterMap_congr fun i _ => ?_
    by_cases h : CwSet.has r.marks i = true <;> simp [h]

/-- Settles O49: the decode as a capture, its own work and a delivery. -/
theorem patrolReadDecodes : Obligations.PatrolReadDecodes := by
  intro s ch upsets f rest r reps admits offers hfl hkind hcur hheld hreps hadmits hoffers
  have frame := s.patrolDecode_frame ch r f reps
  obtain ⟨hdel, hhand⟩ := s.patrolDecode_delivers_handsOver ch r f reps
  have hchan := s.patrolTaken_chan ch r f reps
  obtain ⟨-, -, -, hcap⟩ := State.captureRead_spec s ch r.kind.source r.line f.loc none reps
  have hspec := Channel.patrolDecoded_spec
    ((s.captureRead ch r.kind.source r.line f.loc none reps).chan ch).popFlight r f (s.lineRetired ch r.line) reps
  have hexec : exec (.patrolReadDecode ch upsets) s = .next (s.patrolDecode ch r f reps) := by
    rw [hreps]
    exact exec_patrolReadDecode_of upsets hfl hkind hcur
  have hslots : ((s.captureRead ch r.kind.source r.line f.loc none reps).chan ch).popFlight.patrolAdmits f
      (s.lineRetired ch r.line) = admits := by
    rw [hadmits, hcap]
    exact Channel.patrolAdmits_eq s ch r f
  have htakes : Channel.patrolTakes ((s.captureRead ch r.kind.source r.line f.loc none reps).chan ch).popFlight r f
      (s.lineRetired ch r.line) = fun i => admits && !CwSet.has r.marks i := by
    funext i
    rw [Channel.patrolTakes, hslots]
  have hoff := (patrolOffersOf_eq admits r f reps).trans hoffers.symm
  refine ⟨s.patrolDecode ch r f reps, hexec, frame.onlyChannel, frame.kept, ?queue, ?flights, frame.demandCount,
    frame.table, hdel, hhand, frame.causes, ?clean, ?owed, ?offers, ?patrol⟩
  case queue =>
    rw [frame.queue, hchan, hspec, hcap]
    rfl
  case flights =>
    rw [frame.flights, hchan, hspec, hcap]
    show List.map _ (s.chan ch).flights.tail = _
    rw [hfl, List.tail_cons]
  case clean =>
    intro h
    obtain ⟨hs, hc⟩ := State.patrolDecode_clean h (fun i => by
      have hi := h i
      rw [hreps] at hi ⊢
      exact reportsOf_fixed_eq_none hi) s ch r f hheld
    rw [hfl, List.tail_cons] at hc
    exact ⟨hs, hc⟩
  case owed =>
    rw [frame.owed, hchan, Channel.patrolDecoded_owed, htakes, hcap]
    exact congrArg ((s.chan ch).owed ++ ·) (patrolOwed_eq admits r f reps)
  case offers =>
    have ho := Channel.patrolDecoded_offers
      ((s.captureRead ch r.kind.source r.line f.loc none reps).chan ch).popFlight r f (s.lineRetired ch r.line) reps
      (by rw [hcap]; exact hheld)
    rw [htakes, hoff, ← hchan] at ho
    rw [frame.wbq, frame.patrol]
    rw [hcap] at ho
    exact ho
  case patrol =>
    rw [frame.patrol, hchan, hspec, hcap]
    rfl

end Sys2Proof.Machine
end

section
/-! SUPPORT. The decodes of migration reads, and the copy write (R154, R156, R163). -/

namespace Sys2Proof.Machine

/-! ### What every migration read's decode delivers -/

section
variable (s : State) (ch : ChanId) (f : Flight) (reps : Vector Report 8)

/-- The state between a migration read's leaving and its delivery. -/
def State.migrationPopped : State :=
  (s.captureRead ch .migration f.line f.loc none reps).modChan ch Channel.popFlight

theorem State.migrationReports_eq :
    s.migrationReports ch f reps = (s.migrationPopped ch f reps).deliver ch f.line .migration reps := rfl

theorem State.migrationPopped_chan : (s.migrationPopped ch f reps).chan ch =
    ((s.captureRead ch .migration f.line f.loc none reps).chan ch).popFlight := State.chan_modChan_same _ _ _

theorem State.migrationPopped_table : (s.migrationPopped ch f reps).table = s.table :=
  (State.captureRead_spec s ch .migration f.line f.loc none reps).2.1

theorem State.migrationReports_frame :
    s.DecodeFrame (s.migrationPopped ch f reps) (s.migrationReports ch f reps) ch f.line [] := by
  rw [State.migrationReports_eq]
  exact State.decode_frame .migration f.line f.loc none reps _ (State.onlyChannel_modChan _ _ _)
    (s.migrationPopped_table ch f reps) (fun _ _ => rfl) (by rw [State.migrationPopped_chan]; rfl)

theorem State.migrationReports_delivers_handsOver :
    s.Delivers (s.migrationReports ch f reps) ch f.line .migration reps ∧
      s.HandsOver (s.migrationReports ch f reps) ch .migration f.line f.loc none reps := by
  rw [State.migrationReports_eq]
  exact State.delivers_handsOver .migration f.line f.loc none reps (State.onlyChannel_modChan _ _ _)
    (s.migrationPopped_table ch f reps) (fun _ _ => rfl) (by rw [State.migrationPopped_chan]; rfl)

variable {reps}

theorem State.migrationReports_clean (h : ∀ i : CwIndex, (reps.get i).verdict = .clean) :
    s.migrationReports ch f reps = { s with chans := (s.migrationReports ch f reps).chans } ∧
      (s.migrationReports ch f reps).chan ch = { s.chan ch with flights := (s.chan ch).flights.tail } := by
  rw [State.migrationReports_eq, State.deliver_clean h, State.migrationPopped_chan, State.migrationPopped,
    State.captureRead_clean h]
  exact ⟨rfl, rfl⟩

end

/-- A delivery to a busy channel raises no SPARE_EXHAUSTED (R147). -/
theorem State.deliver_busy_spareExhausted {s : State} {ch : ChanId} (h : (s.chan ch).migration.isSome = true) (n : Nat)
    (src : ReadSource) (reps : Vector Report 8) :
    hasCause (s.deliver ch n src reps).causes .spareExhausted = hasCause s.causes .spareExhausted := by
  have hrec : hasCause (s.record ch n src reps).1.causes .spareExhausted = hasCause s.causes .spareExhausted := by
    rcases (State.record_spec s ch n src reps).2 with e | e <;> rw [e]
    exact (hasCause_raise _ _ _).trans (by simp)
  unfold State.deliver
  split
  · split
    · rw [State.select_busy (by rw [State.record_chan]; exact h)]
      exact hrec
    · exact hrec
  · rfl

/-! ### The copy read of a standing migration -/

theorem fillHeld_get (h : Vector HeldEntry 8) (reps : Vector Report 8) (i : CwIndex) :
    (fillHeld h reps).get i = (h.get i).fill (reps.get i) := Vector.get_ofFn _ i

theorem HeldEntry.fill_spec (h : HeldEntry) (r : Report) : (h.fill r).overlaid = h.overlaid ∧
    (h.overlaid = true → (h.fill r).content = h.content) ∧
    (h.overlaid = false → (h.fill r).content = if r.verdict.isLost then .poison else .data r.data) := by
  unfold HeldEntry.fill
  cases ho : h.overlaid with
  | true => exact ⟨ho, fun _ => rfl, nofun⟩
  | false => exact ⟨rfl, nofun, fun _ => rfl⟩

/-- The poison write that a copy read owes its source (R154). -/
theorem Channel.owe_copyOwes (c : Channel) (f : Flight) (h : Vector HeldEntry 8) (reps : Vector Report 8) :
    (c.owe f.line f.loc (copyOwes h reps) .migration).owed = c.owed ++
      (if ∃ i : CwIndex, (reps.get i).verdict = .uncorrectable ∧ (h.get i).overlaid = false then
        [{ line := f.line, loc := f.loc
           cws := cwSetOf (fun i => decide ((reps.get i).verdict = .uncorrectable) && !(h.get i).overlaid)
           owner := .migration }]
      else []) := by
  have hset : copyOwes h reps =
      cwSetOf (fun i => decide ((reps.get i).verdict = .uncorrectable) && !(h.get i).overlaid) := by
    unfold copyOwes
    simp only [beq_eq_decide]
  rw [hset, Channel.owe_cwSetOf]
  simp

/-- A copy read's own work, once its delivery is made (R154). -/
def Channel.copyFilled (c : Channel) (m : Migration) (h : Vector HeldEntry 8) (f : Flight) (reps : Vector Report 8) :
    Channel :=
  { (if f.moved then c else c.owe f.line f.loc (copyOwes h reps) .migration) with
    migration := some { m with phase := .copyWrite, inFlight := false, held := some (fillHeld h reps) } }

theorem Channel.copyFilled_spec (c : Channel) (m : Migration) (h : Vector HeldEntry 8) (f : Flight)
    (reps : Vector Report 8) : c.copyFilled m h f reps = { c with
      owed := (c.copyFilled m h f reps).owed
      migration := some { m with phase := .copyWrite, inFlight := false, held := some (fillHeld h reps) } } := by
  unfold Channel.copyFilled Channel.owe
  split
  · rfl
  · split <;> rfl

section
variable {s : State} {ch : ChanId} {m : Migration} {h : Vector HeldEntry 8} {f : Flight} {rest : List Flight}

theorem State.copyDecode_eq (hh : m.held = some h) (reps : Vector Report 8) : s.copyDecode ch m f reps =
    (s.migrationReports ch f reps).modChan ch (fun c => c.copyFilled m h f reps) := by
  unfold State.copyDecode
  rw [hh]
  rfl

theorem exec_copyReadDecode_standing (upsets : LineWords) (hm : (s.chan ch).migration = some m)
    (hfl : (s.chan ch).flights = f :: rest) (hkind : f.kind = .copy false) :
    exec (.copyReadDecode ch upsets) s = .next (s.copyDecode ch m f (reportsOf f.words upsets)) := by
  show execCopyReadDecode ch upsets s = _
  simp only [execCopyReadDecode, hfl, hkind, hm]

theorem exec_copyReadDecode_late (upsets : LineWords) (hfl : (s.chan ch).flights = f :: rest)
    (hkind : f.kind = .copy true) :
    exec (.copyReadDecode ch upsets) s = .next (s.migrationReports ch f (reportsOf f.words upsets)) := by
  show execCopyReadDecode ch upsets s = _
  simp only [execCopyReadDecode, hfl, hkind]

theorem exec_verifyReadDecode_late (upsets : LineWords) (hfl : (s.chan ch).flights = f :: rest)
    (hkind : f.kind = .verify true) :
    exec (.verifyReadDecode ch upsets) s = .next (s.migrationReports ch f (reportsOf f.words upsets)) := by
  show execVerifyReadDecode ch upsets s = _
  simp only [execVerifyReadDecode, hfl, hkind]

end

/-! ### The copy write -/

theorem Channel.cwAt_of_dramGet {c : Channel} {loc : Loc} {i : CwIndex} {w : Codeword} (ch : ChanId)
    (h : dramGet c.dram (cwAddress (c.physical loc) i) = some w) : c.cwAt ch loc i = w := by
  unfold Channel.cwAt
  rw [h]
  rfl

theorem CwSet.has_full : ∀ i : CwIndex, CwSet.has 0xFF i = true := by decide

theorem copyPlan_get (h : Vector HeldEntry 8) (i : CwIndex) : (copyPlan h).get i = (h.get i).content.toWrite :=
  Vector.get_ofFn _ i

theorem exec_copyWriteIssue_of {s : State} {ch : ChanId} {m : Migration} {h : Vector HeldEntry 8}
    (hop : s.nextOp ch = some .copyWrite) (hm : (s.chan ch).migration = some m) (hh : m.held = some h)
    (hin : (s.chan ch).inDram (.slot m.target) = true) :
    exec (.copyWriteIssue ch) s = .next (s.modChan ch (fun c =>
      { c.clearDemand.writeLine (.slot m.target) (copyPlan h) with
        migration := some { m with copyWritten := true, phase := .verifyRead, inFlight := false } })) := by
  show execCopyWriteIssue ch s = _
  unfold execCopyWriteIssue
  rw [hop, hm]
  dsimp only
  rw [State.atLines_next (by simpa using hin), hh]
  rfl

/-- What a standing migration's copy read leaves of its channel (R154, R168). -/
theorem State.copyDecode_chan {s : State} {ch : ChanId} {m : Migration} {h : Vector HeldEntry 8} {f : Flight}
    {rest : List Flight} (hm : (s.chan ch).migration = some m) (hh : m.held = some h)
    (hfl : (s.chan ch).flights = f :: rest) (reps : Vector Report 8) (d c : Channel)
    (hd : d = (s.copyDecode ch m f reps).chan ch) (hc : c = (s.migrationReports ch f reps).chan ch) :
    d = { s.chan ch with
      flights := rest, owed := d.owed, capture := c.capture, ceCount := c.ceCount, ueCount := c.ueCount
      migration := some { m with phase := .copyWrite, inFlight := false, held := some (fillHeld h reps) } } ∧
    (f.moved = true → d.owed = (s.chan ch).owed) ∧
    (f.moved = false → d.owed = (s.chan ch).owed ++
      (if ∃ i : CwIndex, (reps.get i).verdict = .uncorrectable ∧ (h.get i).overlaid = false then
        [{ line := f.line, loc := f.loc
           cws := cwSetOf (fun i => decide ((reps.get i).verdict = .uncorrectable) && !(h.get i).overlaid)
           owner := .migration }]
      else [])) := by
  have hcap := (State.captureRead_spec s ch .migration f.line f.loc none reps).2.2.2
  rw [State.migrationReports_chan (by rw [hm]; rfl)] at hc
  have hpop : c = { s.chan ch with
      flights := rest, capture := c.capture, ceCount := c.ceCount, ueCount := c.ueCount } := by
    have htail : (s.chan ch).flights.tail = rest := by rw [hfl, List.tail_cons]
    rw [hc, hcap, ← htail]
    rfl
  rw [State.copyDecode_eq hh, State.chan_modChan_same, State.migrationReports_chan (by rw [hm]; rfl), ← hc] at hd
  have hspec := c.copyFilled_spec m h f reps
  rw [← hd] at hspec
  have howed : c.owed = (s.chan ch).owed := by rw [hpop]
  refine ⟨?_, fun hmoved => ?_, fun hmoved => ?_⟩
  · rw [hpop] at hspec
    exact hspec
  · rw [hd, Channel.copyFilled, if_pos hmoved, ← howed]
  · rw [hd, Channel.copyFilled, if_neg (by rw [hmoved]; decide), ← howed]
    exact Channel.owe_copyOwes c f h reps

/-- Settles O46: the copy read's decode, the copy write, and the late reads, whose decode is the delivery alone. -/
theorem copyReadAndCopyWrite : Obligations.CopyReadAndCopyWrite := by
  refine ⟨fun s ch m h hm hh => ⟨fun upsets f rest reps hfl hkind hreps => ?_, fun hop hin => ?_⟩,
    fun s ch upsets f rest reps i hfl hreps hi => ?_⟩
  · have frame := s.migrationReports_frame ch f reps
    obtain ⟨⟨htable, -, -, -, hfull, hspare⟩, hhand⟩ := s.migrationReports_delivers_handsOver ch f reps
    have hbusy : (s.chan ch).migration.isSome = true := by rw [hm]; rfl
    have hexec : exec (.copyReadDecode ch upsets) s = .next (s.copyDecode ch m f reps) :=
      hreps ▸ exec_copyReadDecode_standing upsets hm hfl hkind
    obtain ⟨hchan, hmoved, hstill⟩ := State.copyDecode_chan hm hh hfl reps _ _ rfl rfl
    have heq := State.copyDecode_eq (s := s) (ch := ch) (f := f) hh reps
    have honly : s.OnlyChannel (s.copyDecode ch m f reps) ch := by
      rw [heq]
      exact frame.onlyChannel.trans (State.onlyChannel_modChan _ _ _)
    have ht : (s.copyDecode ch m f reps).table = (s.migrationReports ch f reps).table := by rw [heq]; rfl
    have hc : (s.copyDecode ch m f reps).causes = (s.migrationReports ch f reps).causes := by rw [heq]; rfl
    generalize s.copyDecode ch m f reps = t at *
    refine ⟨t, fillHeld h reps, hexec, honly, by rw [hchan], fun i => fillHeld_get h reps i ▸ (h.get i).fill_spec _,
      by rw [hchan], by unfold Channel.KeptByDecode; rw [hchan], by rw [hchan], by rw [hchan], by rw [hchan],
      by rw [hchan], by rw [hchan], by rw [hchan], ?table, ht.trans htable, by rw [hc]; exact hfull, ?hands, ?causes,
      hmoved, hstill⟩
    case table =>
      have := frame.table
      unfold State.TableKeptBut at this ⊢
      rwa [ht]
    case hands =>
      exact hhand.keep (by rw [hchan]) (by rw [hchan]) (by rw [hchan]) (by rw [hc]) (by rw [hc])
    case causes =>
      intro k hk
      rw [hc]
      by_cases hks : k = .spareExhausted
      · rw [hks]
        exact hspare.trans (State.deliver_busy_spareExhausted hbusy f.line .migration reps)
      · refine frame.causes k fun hmem => hk ?_
        simp only [List.mem_cons, List.not_mem_nil, or_false] at hmem ⊢
        tauto
  · have hexec := exec_copyWriteIssue_of hop hm hh hin
    refine ⟨_, hexec, State.onlyChannel_modChan _ _ _, rfl, rfl, fun i => ⟨fun d hd => ?data, fun hp => ?poison⟩,
      fun a ha => ?kept, by rw [State.chan_modChan_same]; rfl⟩
    all_goals rw [State.chan_modChan_same]
    case data =>
      exact Channel.cwAt_of_dramGet ch (Channel.dramGet_writeLine_same (s.chan ch) (.slot m.target) _ i _
        (by rw [copyPlan_get, hd]; rfl))
    case poison =>
      exact Channel.cwAt_of_dramGet ch (Channel.dramGet_writeLine_same (s.chan ch) (.slot m.target) _ i _
        (by rw [copyPlan_get, hp]; rfl))
    case kept =>
      refine Channel.dramGet_writeLine_other (s.chan ch) (.slot m.target) _ a fun i _ => ?_
      exact ha _ (List.mem_singleton.mpr rfl) i (CwSet.has_full i)
  · have frame := s.migrationReports_frame ch f reps
    obtain ⟨hdel, hhand⟩ := s.migrationReports_delivers_handsOver ch f reps
    have hpop := s.migrationPopped_chan ch f reps
    obtain ⟨-, -, -, hcap⟩ := State.captureRead_spec s ch .migration f.line f.loc none reps
    have hexec : exec i s = .next (s.migrationReports ch f reps) := by
      rw [hreps]
      rcases hi with ⟨hkind, rfl⟩ | ⟨hkind, rfl⟩
      · exact exec_copyReadDecode_late upsets hfl hkind
      · exact exec_verifyReadDecode_late upsets hfl hkind
    refine ⟨_, hexec, frame.onlyChannel, frame.kept, hdel, hhand, frame.table, frame.causes, ?queue, ?owed, ?wbq, ?patrol,
      frame.demandCount, ?flights, fun m hm => ?standing, fun h => ?clean⟩
    case queue => rw [frame.queue, hpop, hcap]; rfl
    case owed => rw [frame.owed, hpop, hcap]; rfl
    case wbq => rw [frame.wbq, hpop, hcap]; rfl
    case patrol => rw [frame.patrol, hpop, hcap]; rfl
    case flights =>
      rw [frame.flights, hpop, hcap]
      show List.map _ (s.chan ch).flights.tail = _
      rw [hfl, List.tail_cons]
    case standing =>
      rw [State.migrationReports_chan (by rw [hm]; rfl), hcap]
      exact ⟨hm, rfl⟩
    case clean =>
      obtain ⟨hs, hc⟩ := s.migrationReports_clean ch f h
      rw [hfl, List.tail_cons] at hc
      exact ⟨hs, hc⟩

end Sys2Proof.Machine
end

section
/-! SUPPORT. What DRAM holds after the writes of one plan at several locations (R20, R84, R86, R157). -/

namespace Sys2Proof.Machine

/-! ### Writes of one plan at several locations -/

/-- The writes of a plan at some locations, one after the other. -/
def Channel.writeLines (c : Channel) (locs : List Loc) (plan : Vector CwWrite 8) : Channel :=
  locs.foldl (fun d l => d.writeLine l plan) c

section
variable {c d : Channel} {plan : Vector CwWrite 8}

theorem Channel.physical_congr (h : d.physLines = c.physLines) (l : Loc) : d.physical l = c.physical l := by
  cases l with
  | line n => rfl
  | slot i => rw [Channel.physical, Channel.physical, h]

theorem Channel.writeLine_congr (hd : d.dram = c.dram) (hp : d.physLines = c.physLines) (l : Loc) :
    (d.writeLine l plan).dram = (c.writeLine l plan).dram := by
  unfold Channel.writeLine
  rw [hd, Channel.physical_congr hp]

theorem Channel.writeLines_physLines (c : Channel) (locs : List Loc) (plan : Vector CwWrite 8) :
    (c.writeLines locs plan).physLines = c.physLines := by
  induction locs generalizing c with
  | nil => rfl
  | cons l locs ih => exact ih (c.writeLine l plan)

theorem Channel.writeLines_congr (hd : d.dram = c.dram) (hp : d.physLines = c.physLines) (locs : List Loc) :
    (d.writeLines locs plan).dram = (c.writeLines locs plan).dram := by
  induction locs generalizing c d with
  | nil => exact hd
  | cons l locs ih => exact ih (c := c.writeLine l plan) (Channel.writeLine_congr hd hp l) hp

theorem Channel.dramGet_writeLines_other (locs : List Loc) (c : Channel) {a : Nat}
    (ha : ∀ l ∈ locs, ∀ i : CwIndex, (plan.get i).content.isSome = true → a ≠ cwAddress (c.physical l) i) :
    dramGet (c.writeLines locs plan).dram a = dramGet c.dram a := by
  induction locs generalizing c with
  | nil => rfl
  | cons l locs ih =>
    refine (ih (c.writeLine l plan) fun k hk => ha k (List.mem_cons_of_mem _ hk)).trans ?_
    exact Channel.dramGet_writeLine_other c l plan a (ha l List.mem_cons_self)

/-- A codeword that the plan has put in DRAM is not changed by the plan's later writes. -/
theorem Channel.dramGet_writeLines_keep (locs : List Loc) (c : Channel) {n : Nat} {i : CwIndex} {w : Codeword}
    (hw : (plan.get i).content = some w) (h : dramGet c.dram (cwAddress n i) = some w) :
    dramGet (c.writeLines locs plan).dram (cwAddress n i) = some w := by
  induction locs generalizing c with
  | nil => exact h
  | cons l locs ih =>
    refine ih (c.writeLine l plan) ?_
    by_cases hn : n = c.physical l
    · rw [hn]
      exact Channel.dramGet_writeLine_same c l plan i w hw
    · rw [Channel.dramGet_writeLine_other c l plan _ fun j _ e => hn (cwAddress_inj.mp e).1]
      exact h

theorem Channel.dramGet_writeLines_same (locs : List Loc) (c : Channel) {l : Loc} (hl : l ∈ locs) {i : CwIndex}
    {w : Codeword} (hw : (plan.get i).content = some w) :
    dramGet (c.writeLines locs plan).dram (cwAddress (c.physical l) i) = some w := by
  induction locs generalizing c with
  | nil => cases hl
  | cons k locs ih =>
    rcases List.mem_cons.mp hl with rfl | hl
    · exact Channel.dramGet_writeLines_keep locs (c.writeLine l plan) hw
        (Channel.dramGet_writeLine_same c l plan i w hw)
    · exact ih (c.writeLine k plan) hl

/-- A channel whose DRAM is what the writes of a plan leave: it holds what the plan writes, and elsewhere what it held. -/
theorem Channel.dram_of_writeLines {locs : List Loc} (hd : d.dram = (c.writeLines locs plan).dram)
    (hp : d.physLines = c.physLines) (ch : ChanId) {cws : CwSet}
    (hcws : ∀ i : CwIndex, (plan.get i).content.isSome = true → CwSet.has cws i = true) :
    d.DramHolds ch locs plan ∧ c.DramKeptBut d locs cws := by
  refine ⟨fun l hl i w hw => Channel.cwAt_of_dramGet ch ?_, fun a ha => ?_⟩
  · rw [hd, Channel.physical_congr hp]
    exact Channel.dramGet_writeLines_same locs c hl hw
  · rw [hd]
    exact Channel.dramGet_writeLines_other locs c fun l hl i hi => ha l hl i (hcws i hi)

end

/-- Operations that each write the plan at one location. -/
theorem State.foldl_writes_dram {ch : ChanId} {plan : Vector CwWrite 8} {g : State → Loc → State}
    (hg : ∀ t l, ((g t l).chan ch).dram = ((t.chan ch).writeLine l plan).dram ∧
      ((g t l).chan ch).physLines = (t.chan ch).physLines) (locs : List Loc) (s : State) :
    ((locs.foldl g s).chan ch).dram = ((s.chan ch).writeLines locs plan).dram ∧
      ((locs.foldl g s).chan ch).physLines = (s.chan ch).physLines := by
  induction locs generalizing s with
  | nil => exact ⟨rfl, rfl⟩
  | cons l locs ih =>
    obtain ⟨h1, h2⟩ := ih (g s l)
    obtain ⟨k1, k2⟩ := hg s l
    exact ⟨h1.trans (Channel.writeLines_congr (c := (s.chan ch).writeLine l plan) k1 k2 locs), h2.trans k2⟩

theorem State.writeAt_dram (s : State) (ch : ChanId) (plan : Vector CwWrite 8) (full : CwSet) (l : Loc) :
    ((s.writeAt ch plan full l).chan ch).dram = ((s.chan ch).writeLine l plan).dram ∧
      ((s.writeAt ch plan full l).chan ch).physLines = (s.chan ch).physLines := by
  have h : (s.writeAt ch plan full l).chan ch =
      (((s.chan ch).writeLine l plan).dropOwed l (writtenSet plan)).markSuperseded l (writtenSet plan) :=
    State.chan_modChan_same s ch (fun c =>
      ((c.writeLine l plan).dropOwed l (writtenSet plan)).markSuperseded l (writtenSet plan))
  rw [h]
  exact ⟨rfl, rfl⟩

theorem State.poisonAt_dram (s : State) (ch : ChanId) (cws : CwSet) (l : Loc) :
    ((s.poisonAt ch cws l).chan ch).dram = ((s.chan ch).writeLine l (poisonPlan cws)).dram ∧
      ((s.poisonAt ch cws l).chan ch).physLines = (s.chan ch).physLines := by
  have h : (s.poisonAt ch cws l).chan ch = (s.chan ch).writeLine l (poisonPlan cws) :=
    State.chan_modChan_same s ch (fun c => c.writeLine l (poisonPlan cws))
  rw [h]
  exact ⟨rfl, rfl⟩

theorem locations_eq (loc : Loc) (second : Option SlotId) :
    locations loc second = loc :: second.toList.map Loc.slot := by cases second <;> rfl

/-- What a demand write leaves in DRAM (R86, R88, R157). -/
theorem State.issueWrite_dram (s : State) (ch : ChanId) (line : Nat) (p : Probe) (plan : Vector CwWrite 8)
    (full : CwSet) : ((s.issueWrite ch line p plan full).chan ch).dram =
      ((s.chan ch).writeLines (locations p.loc (s.secondAt ch line p)) plan).dram := by
  obtain ⟨h, -⟩ := State.foldl_writes_dram (plan := plan) (fun t l => t.writeAt_dram ch plan full l)
    (locations p.loc (s.secondAt ch line p))
    (s.modChan ch (fun c =>
      c.dropWrites (WbEntry.reached (locations p.loc (s.secondAt ch line p)) (writtenSet plan))))
  rw [State.chan_modChan_same] at h
  have hdrop := h.trans (Channel.writeLines_congr (c := s.chan ch) (by rw [Channel.dropWrites_spec])
    (by rw [Channel.dropWrites_spec]) _)
  unfold State.issueWrite
  dsimp only
  split
  · rw [State.chan_modChan_same]
    exact hdrop
  · exact hdrop

/-- What a poison write leaves in DRAM (R84, R157). -/
theorem State.issuePoison_dram (s : State) (ch : ChanId) (o : Owed) : ((s.issuePoison ch o).chan ch).dram =
    ((s.chan ch).writeLines (locations o.loc (s.poisonSecond ch o)) (poisonPlan o.cws)).dram := by
  obtain ⟨h, -⟩ := State.foldl_writes_dram (fun t l => t.poisonAt_dram ch o.cws l)
    (locations o.loc (s.poisonSecond ch o))
    (s.modChan ch (fun c => Channel.dropWrites { c.clearDemand with owed := c.owed.tail }
      (WbEntry.reached (locations o.loc (s.poisonSecond ch o)) o.cws)))
  rw [State.chan_modChan_same] at h
  have hdrop := h.trans (Channel.writeLines_congr (c := s.chan ch) (by rw [Channel.dropWrites_spec]; rfl)
    (by rw [Channel.dropWrites_spec]; rfl) _)
  unfold State.issuePoison
  dsimp only
  split
  · rw [State.chan_modChan_same]
    exact hdrop
  · exact hdrop

end Sys2Proof.Machine
end

section
/-! SUPPORT. The issue of a demand write, with or without a merge read. -/

namespace Sys2Proof.Machine

/-! ### Plans as the statements speak of them -/

theorem content_isSome_iff (w : CwWrite) : w.content.isSome = true ↔ w ≠ .keep := by
  cases w <;> simp [CwWrite.content]

theorem has_writtenSet (plan : Vector CwWrite 8) (c : CwIndex) :
    CwSet.has (writtenSet plan) c = decide (plan.get c ≠ .keep) := by
  rw [writtenSet, CwSet.has_cwSetOf, Bool.eq_iff_iff, content_isSome_iff, decide_eq_true_iff]

theorem markerSet_eq (plan : Vector CwWrite 8) :
    markerSet plan = cwSetOf (fun c => decide (plan.get c = .marker)) := by
  unfold markerSet
  simp only [beq_eq_decide]

theorem fullSet_eq (mask : BitVec 64) : fullSet mask = cwSetOf (fun c => decide (maskOf mask c = 0xFF)) := by
  unfold fullSet
  simp only [beq_eq_decide, cwKind_full]

theorem WbEntry.reached_eq (locs : List Loc) (cws : CwSet) :
    WbEntry.reached locs cws = fun e => decide (e.loc ∈ locs) && CwSet.has cws e.cw := by
  funext e
  rw [WbEntry.reached, List.contains_eq_mem]

/-- A write without partial codewords writes the codewords that the mask covers, and keeps the others (R86). -/
theorem eq_fullPlan {data : LineData} {mask : BitVec 64} {plan : Vector CwWrite 8}
    (h : ∀ c : CwIndex, plan.get c =
      if maskOf mask c = 0xFF then .word (encode (LineData.codeword data c)) else .keep) :
    plan = fullPlan data mask := by
  refine Vector.ext fun i hi => ?_
  have hget : plan.get ⟨i, hi⟩ = (fullPlan data mask).get ⟨i, hi⟩ := by
    rw [h, fullPlan, Vector.get_ofFn]
    simp only [cwKind_full]
  exact hget

/-! ### What the migration takes of a write -/

section
variable {m : Migration} {h : Vector HeldEntry 8} {plan : Vector CwWrite 8}

theorem Migration.take_of_no_copy (hm : m.held = none) : m.take plan = m := by
  obtain ⟨line, source, target, retry, phase, inFlight, copyWritten, held, expected⟩ := m
  subst hm
  rfl

theorem Migration.take_frame (m : Migration) (plan : Vector CwWrite 8) :
    { m.take plan with held := none } = { m with held := none } := rfl

/-- The held copy after a write of its line (R155, R157). -/
theorem Migration.take_of_copy (hm : m.held = some h) : ∃ g : Vector HeldEntry 8,
    m.take plan = { m with held := some g } ∧ ∀ c : CwIndex,
      (plan.get c = .keep → g.get c = h.get c) ∧
      (∀ w, plan.get c = .word w → (g.get c).content = .data (Codeword.data w)) ∧
      (plan.get c = .marker → (g.get c).content = .poison) ∧
      (plan.get c ≠ .keep → (g.get c).overlaid =
        ((h.get c).overlaid || (decide (m.phase = .copyRead) && m.inFlight))) := by
  refine ⟨_, by unfold Migration.take; rw [hm]; rfl, fun c => ?_⟩
  rw [Vector.get_ofFn]
  cases plan.get c <;> simp

end

/-- What the handover of a write's codewords leaves of the Migration Unit (R155, R157): it changes the held copy alone. -/
theorem map_take_held (x : Option Migration) (line : Nat) (plan : Vector CwWrite 8) :
    (x.map (fun m => if m.line = line then m.take plan else m)).map (fun m => { m with held := none }) =
      x.map (fun m => { m with held := none }) := by
  cases x with
  | none => rfl
  | some m =>
    simp only [Option.map_some]
    split <;> rfl

/-! ### The second location -/

/-- A write reaches its probe's target, unless the migration has begun a later attempt since the probe (R157, R161). -/
theorem State.secondAt_standing {s : State} {ch : ChanId} {m : Migration} (hm : (s.chan ch).migration = some m)
    (line : Nat) (p : Probe) : s.secondAt ch line p =
      if p.sparing = true ∧ m.line = line ∧ p.retry < m.retry then none else p.second := by
  unfold State.secondAt
  rw [hm]

theorem State.secondAt_idle {s : State} {ch : ChanId} (hm : (s.chan ch).migration = none) (line : Nat) (p : Probe) :
    s.secondAt ch line p = p.second := by
  unfold State.secondAt
  rw [hm]

/-! ### A demand write at its issue -/

/-- The state that the issue of a demand write leaves (R86, R88, R90, R97). -/
def State.demandWritten (s : State) (ch : ChanId) (q : QEntry) (p : Probe) (plan : Vector CwWrite 8)
    (mask : BitVec 64) (k : Nat) (o : WriteOutcome) : State :=
  ((s.modChan ch (fun c => { c with demandCount := k })).issueWrite ch q.req.line p plan (fullSet mask)).modChan ch
    (fun c => c.setStage q.seq (.written o))

section
variable {s : State} {ch : ChanId} {q : QEntry} {data : LineData} {mask : BitVec 64} {p : Probe}
variable {plan : Vector CwWrite 8} {o : WriteOutcome} {k : Nat}

theorem exec_demandWriteIssue_of (hop : s.nextOp ch = some .demandWrite) (hq : (s.chan ch).head = some q)
    (hkind : q.req.kind = .write data mask)
    (hin : ∀ l ∈ locations (s.probe ch q.req.line).loc (s.secondAt ch q.req.line (s.probe ch q.req.line)),
      (s.chan ch).inDram l = true)
    (hk : k = if (s.chan ch).wbq = [] then 0 else min 8 ((s.chan ch).demandCount + 1)) :
    exec (.demandWriteIssue ch) s =
      .next (s.demandWritten ch q (s.probe ch q.req.line) (fullPlan data mask) mask k .done) := by
  have hcount : s.modChan ch (fun c => c.countDemand) = s.modChan ch (fun c => { c with demandCount := k }) :=
    State.modChan_congr (Channel.countDemand_eq hk)
  show execDemandWriteIssue ch s = _
  unfold execDemandWriteIssue
  rw [hop, hq]
  dsimp only
  rw [hkind]
  dsimp only
  rw [State.atLines_next hin, hcount]
  rfl

theorem exec_mergeWriteIssue_of (hop : s.nextOp ch = some .mergeWrite) (hq : (s.chan ch).head = some q)
    (hkind : q.req.kind = .write data mask) (hst : q.stage = .mergeDecoded p plan o)
    (hin : ∀ l ∈ locations p.loc (s.secondAt ch q.req.line p), (s.chan ch).inDram l = true)
    (hk : k = if p.count = 7 then (s.chan ch).demandCount
      else if (s.chan ch).wbq = [] then 0 else min 8 ((s.chan ch).demandCount + 1)) :
    exec (.mergeWriteIssue ch) s = .next (s.demandWritten ch q p plan mask k o) := by
  have hcount : s.modChan ch (fun c => c.countMergeWrite p) = s.modChan ch (fun c => { c with demandCount := k }) := by
    refine State.modChan_congr ?_
    rw [hk]
    unfold Channel.countMergeWrite Channel.countDemand
    simp only [List.isEmpty_iff]
  show execMergeWriteIssue ch s = _
  unfold execMergeWriteIssue
  rw [hop, hq]
  dsimp only
  rw [hst, hkind]
  dsimp only
  rw [State.atLines_next hin, hcount]
  rfl

theorem State.secondAt_modChan_count (s : State) (ch : ChanId) (line : Nat) (p : Probe) (k : Nat) :
    (s.modChan ch (fun c => { c with demandCount := k })).secondAt ch line p = s.secondAt ch line p := by
  unfold State.secondAt
  rw [State.chan_modChan_same]

/-- Everything that the issue of a demand write does (R20, R24, R86, R88, R90, R97, R115, R116, R157). -/
theorem State.demandWritten_spec {locs : List Loc} (hl : locs = locations p.loc (s.secondAt ch q.req.line p))
    (t : State) (ht : t = s.demandWritten ch q p plan mask k o) :
    s.OnlyChannel t ch ∧ t.causes = s.causes ∧
      t.table = s.table.map (fun r => r.afterWrite ch (fullSet mask) (markerSet plan) locs) ∧
      (s.chan ch).Drops (t.chan ch) k (WbEntry.reached locs (writtenSet plan)) ∧
      (t.chan ch).dram = ((s.chan ch).writeLines locs plan).dram ∧
      t.chan ch = { s.chan ch with
        dram := (t.chan ch).dram, wbq := (t.chan ch).wbq, demandCount := (t.chan ch).demandCount
        queue := (s.chan ch).queue.map (fun x => if x.seq = q.seq then { x with stage := .written o } else x)
        migration := if p.sparing then
            (s.chan ch).migration.map (fun m => if m.line = q.req.line then m.take plan else m)
          else (s.chan ch).migration
        owed := ((s.chan ch).owed.map (fun o =>
          if o.loc ∈ locs then { o with cws := o.cws &&& ~~~(writtenSet plan) } else o)).filter
          (fun o => !(decide (o.loc ∈ locs) && decide (o.cws = 0)))
        patrol := { (s.chan ch).patrol with
          held := (t.chan ch).patrol.held
          current := (s.chan ch).patrol.current.map (fun r =>
            if r.loc ∈ locs ∧ r.decoded = false then { r with marks := r.marks ||| writtenSet plan } else r) } } := by
  have hl' := hl
  rw [← State.secondAt_modChan_count s ch q.req.line p k] at hl'
  obtain ⟨honly, hcauses, htable, hdrops, hchan⟩ := State.issueWrite_spec
    (s.modChan ch (fun c => { c with demandCount := k })) ch q.req.line p plan (fullSet mask) locs hl'
  have hdram := State.issueWrite_dram (s.modChan ch (fun c => { c with demandCount := k })) ch q.req.line p plan
    (fullSet mask)
  rw [← hl', State.chan_modChan_same] at hdram
  rw [State.chan_modChan_same] at hdrops hchan
  subst ht
  unfold State.demandWritten
  generalize State.issueWrite _ ch q.req.line p plan (fullSet mask) = u at *
  rw [State.chan_modChan_same]
  refine ⟨((State.onlyChannel_modChan _ _ _).trans honly).trans (State.onlyChannel_modChan _ _ _), hcauses, htable,
    hdrops, hdram.trans ?_, ?_⟩
  · exact Channel.writeLines_congr (c := s.chan ch) (d := { s.chan ch with demandCount := k }) rfl rfl locs
  · unfold Channel.setStage
    dsimp only
    conv_lhs => rw [hchan]

end

/-- Settles O44: the state that the issue leaves, from the rule of a write to its locations. -/
theorem demandWritesReachDram : Obligations.DemandWritesReachDram := by
  intro s ch q data mask p plan o locs i k hq hkind hcase hlocs hin
  rw [← locations_eq] at hlocs
  have hexec : exec i s = .next (s.demandWritten ch q p plan mask k o) := by
    rcases hcase with ⟨hop, rfl, rfl, rfl, hk, hplan⟩ | ⟨hop, rfl, hst, hk⟩
    · rw [eq_fullPlan hplan]
      exact exec_demandWriteIssue_of hop hq hkind (hlocs ▸ hin) hk
    · exact exec_mergeWriteIssue_of hop hq hkind hst (hlocs ▸ hin) hk
  obtain ⟨honly, hcauses, htable, hdrops, hdram, hchan⟩ := State.demandWritten_spec hlocs _
    (rfl : s.demandWritten ch q p plan mask k o = _)
  generalize s.demandWritten ch q p plan mask k o = t at *
  have hphys : (t.chan ch).physLines = (s.chan ch).physLines := by rw [hchan]
  obtain ⟨hholds, hkept⟩ := Channel.dram_of_writeLines hdram hphys ch (cws := writtenSet plan)
    fun c hc => by rw [has_writtenSet]; exact decide_eq_true ((content_isSome_iff _).mp hc)
  have hmig : (t.chan ch).migration = if p.sparing then
      (s.chan ch).migration.map (fun m => if m.line = q.req.line then m.take plan else m)
    else (s.chan ch).migration := by rw [hchan]
  rw [WbEntry.reached_eq] at hdrops
  refine ⟨t, hexec, honly, hcauses, hholds, hkept, by rw [hchan], hdrops, has_writtenSet plan, ⟨?frame, ?held⟩,
    ?records, ?poison, by rw [hchan], by rw [hchan], fun m h hm hh hsp hline => ?copy, fun m hm hno => ?noCopy,
    fun hm => ⟨?idle, State.secondAt_idle hm _ _⟩, fun m hm => ⟨fun hno => ?probed, fun hsp hline hlt => ?later⟩⟩
  case frame =>
    conv_lhs => rw [hchan]
    rw [hmig]
    rw [hchan]
  case held =>
    rw [hmig]
    split
    · exact map_take_held _ _ _
    · rfl
  case records =>
    rw [htable, List.map_map]
    refine List.map_congr_left fun r _ => ?_
    simp only [Function.comp, Record.afterWrite]
    split <;> rfl
  case poison =>
    rw [htable, markerSet_eq, fullSet_eq]
    rfl
  case copy =>
    obtain ⟨g, htake, hg⟩ := Migration.take_of_copy (plan := plan) hh
    refine ⟨g, ?_, hg⟩
    rw [hmig, if_pos hsp, hm, Option.map_some, if_pos hline, htake]
  case noCopy =>
    rw [hmig, hm, Option.map_some]
    split
    · next hsp =>
      split
      · next hline =>
        rcases hno with hnone | hp | hne
        · rw [Migration.take_of_no_copy hnone]
        · exact absurd hsp (by rw [hp]; decide)
        · exact absurd hline hne
      · rfl
    · rfl
  case idle =>
    rw [hmig, hm]
    split <;> rfl
  case probed =>
    rw [State.secondAt_standing hm, if_neg]
    rintro ⟨hsp, hline, hlt⟩
    rcases hno with hp | hne | hle
    · exact absurd hsp (by rw [hp]; decide)
    · exact hne hline
    · exact absurd hlt (by omega)
  case later => rw [State.secondAt_standing hm, if_pos ⟨hsp, hline, hlt⟩]

end Sys2Proof.Machine
end

section
/-! SUPPORT. The issue of owed poison writes, of write-backs and of fill writes. -/

namespace Sys2Proof.Machine

/-! ### Poison notices as the statements speak of them -/

theorem Record.isAt_iff {r : Record} {ch : ChanId} {loc : Loc} :
    r.isAt ch loc = true ↔ r.key.channel = ch ∧ r.location = loc := by
  rw [Record.isAt, Bool.and_eq_true, decide_eq_true_iff, decide_eq_true_iff]

theorem removePoison_eq (t : List Record) (ch : ChanId) (loc : Loc) (cws : CwSet) :
    removePoison t ch loc cws = t.map (fun r => if r.key.channel = ch ∧ r.location = loc then
      { r with poison := r.poison &&& ~~~cws } else r) := by
  unfold removePoison
  simp only [Record.isAt_iff]

/-- An operation that leaves the consecutive-demand count at 0 leaves it there whatever it drops (R97). -/
theorem Channel.Drops.count_zero {c d : Channel} {p : WbEntry → Bool} (h : c.Drops d 0 p) : d.demandCount = 0 := by
  obtain ⟨-, hstay, hleave⟩ := h
  by_cases hp : ∃ e ∈ c.wbq, p e = true
  · rw [(hleave hp).2, ite_self]
  · exact (hstay fun e he => Bool.eq_false_iff.mpr fun h => hp ⟨e, he, h⟩).2.2

/-! ### Poison writes -/

theorem poisonPlan_get (cws : CwSet) (c : CwIndex) :
    (poisonPlan cws).get c = if CwSet.has cws c then .marker else .keep := Vector.get_ofFn _ c

theorem has_of_poisonPlan {cws : CwSet} {c : CwIndex} (h : ((poisonPlan cws).get c).content.isSome = true) :
    CwSet.has cws c = true := by
  rw [poisonPlan_get] at h
  by_contra hn
  rw [if_neg hn] at h
  cases h

section
variable {s : State} {ch : ChanId} {o : Owed}

theorem State.reachesMigration_iff : s.reachesMigration ch o = true ↔
    ∃ (m : Migration) (r : Record), (s.chan ch).migration = some m ∧ s.rec? ch o.line = some r ∧ r.state = .sparing ∧
      m.line = o.line ∧ m.source = o.loc := by
  unfold State.reachesMigration
  cases s.rec? ch o.line <;> cases (s.chan ch).migration <;> simp [and_assoc]

theorem State.poisonSecond_iff (i : SlotId) : s.poisonSecond ch o = some i ↔
    ∃ (m : Migration) (r : Record), (s.chan ch).migration = some m ∧ s.rec? ch o.line = some r ∧ r.state = .sparing ∧
      m.line = o.line ∧ m.source = o.loc ∧ m.copyWritten = true ∧ m.target = i := by
  have hsecond : s.poisonSecond ch o = some i ↔ ∃ m : Migration, (s.chan ch).migration = some m ∧
      s.reachesMigration ch o = true ∧ m.copyWritten = true ∧ m.target = i := by
    unfold State.poisonSecond
    cases (s.chan ch).migration <;> simp [and_assoc]
  rw [hsecond, State.reachesMigration_iff]
  constructor
  · rintro ⟨m, hm, ⟨m', r, hm', hr, hsp, hline, hsrc⟩, hcopy, htarget⟩
    obtain rfl : m = m' := Option.some.inj (hm.symm.trans hm')
    exact ⟨m, r, hm, hr, hsp, hline, hsrc, hcopy, htarget⟩
  · rintro ⟨m, r, hm, hr, hsp, hline, hsrc, hcopy, htarget⟩
    exact ⟨m, hm, ⟨m, r, hm, hr, hsp, hline, hsrc⟩, hcopy, htarget⟩

theorem exec_poisonWriteIssue_of {rest : List Owed} (hop : s.nextOp ch = some .poisonWrite)
    (ho : (s.chan ch).owed = o :: rest)
    (hin : ∀ l ∈ locations o.loc (s.poisonSecond ch o), (s.chan ch).inDram l = true) :
    exec (.poisonWriteIssue ch) s = .next (s.issuePoison ch o) := by
  show execPoisonWriteIssue ch s = _
  unfold execPoisonWriteIssue
  rw [hop, ho]
  exact State.atLines_next hin _

/-! ### Write-backs -/

theorem writeBackPlan_get (e : WbEntry) (c : CwIndex) :
    (writeBackPlan e).get c = if c = e.cw then .word e.content else .keep := Vector.get_ofFn _ c

theorem CwSet.has_cwBit : ∀ c : CwIndex, CwSet.has (cwBit c) c = true := by decide

theorem has_of_writeBackPlan {e : WbEntry} {c : CwIndex} (h : ((writeBackPlan e).get c).content.isSome = true) :
    CwSet.has (cwBit e.cw) c = true := by
  rw [writeBackPlan_get] at h
  by_cases hc : c = e.cw
  · rw [hc]
    exact CwSet.has_cwBit e.cw
  · rw [if_neg hc] at h
    cases h

theorem exec_writeBackIssue_of {e : WbEntry} (hop : s.nextOp ch = some .writeBack) (hw : (s.chan ch).wbNext = some e)
    (hin : (s.chan ch).inDram e.loc = true) : exec (.writeBackIssue ch) s = .next (s.issueWriteBack ch e) := by
  show execWriteBackIssue ch s = _
  unfold execWriteBackIssue
  rw [hop, hw]
  exact State.atLines_next (by simpa using hin) _

theorem State.issueWriteBack_chan (s : State) (ch : ChanId) (e : WbEntry) : (s.issueWriteBack ch e).chan ch =
    Channel.reoffer (((s.chan ch).clearDemand.writeLine e.loc (writeBackPlan e)).setWbq ((s.chan ch).wbq.erase e)) :=
  State.chan_modChan_same s ch (fun c =>
    Channel.reoffer (((c.clearDemand).writeLine e.loc (writeBackPlan e)).setWbq (c.wbq.erase e)))

/-- The DRAM of a channel after a write-back: the entry's codeword is written, and no other (R94). -/
theorem State.issueWriteBack_dram (s : State) (ch : ChanId) (e : WbEntry) :
    ((s.issueWriteBack ch e).chan ch).dram = ((s.chan ch).writeLines [e.loc] (writeBackPlan e)).dram := by
  rw [State.issueWriteBack_chan]
  rfl

/-- What a write-back leaves of its channel (R94, R97, R114). -/
theorem State.issueWriteBack_frame (s : State) (ch : ChanId) (e : WbEntry) (d : Channel)
    (hd : d = (s.issueWriteBack ch e).chan ch) :
    d = { s.chan ch with
      dram := d.dram, demandCount := 0, wbq := d.wbq, patrol := { (s.chan ch).patrol with held := d.patrol.held } } := by
  rw [State.issueWriteBack_chan] at hd
  have hcount : d.demandCount = 0 := by
    rw [hd]
    exact ite_self _
  conv_rhs => rw [← hcount]
  rw [hd]
  rfl

/-! ### Fill writes -/

theorem fillPlan_get (c : CwIndex) : fillPlan.get c = .word (encode 0) :=
  Vector.get_replicate (n := 8) _ c

theorem encode_zero : encode 0 = 0 := by decide +kernel

theorem State.nextOp_filling (hst : (s.chan ch).state = .initializing)
    (hlt : (s.chan ch).fillProgress < (s.chan ch).physLines) : s.nextOp ch = some .fillWrite := by
  unfold State.nextOp
  rw [hst]
  exact if_pos hlt

theorem exec_fillWriteIssue_of (hst : (s.chan ch).state = .initializing)
    (hlt : (s.chan ch).fillProgress < (s.chan ch).physLines) (hphys : 512 ≤ (s.chan ch).physLines) :
    exec (.fillWriteIssue ch) s = .next
      (if (s.chan ch).fillProgress + 1 = (s.chan ch).physLines then
        (s.modChan ch Channel.fillStep).raise .channelReady
      else s.modChan ch Channel.fillStep) := by
  have hin : (s.chan ch).inDram (.line (s.chan ch).fillProgress) = true := by
    rw [Channel.inDram, Bool.and_eq_true, decide_eq_true_iff, decide_eq_true_iff]
    exact ⟨hphys, hlt⟩
  show execFillWriteIssue ch s = _
  unfold execFillWriteIssue
  rw [State.nextOp_filling hst hlt]
  exact State.atLines_next (by simpa using hin) _

/-- The state that a fill write leaves (R75): the last one raises CHANNEL_READY. -/
theorem State.filled_spec (s : State) (ch : ChanId) (t : State)
    (ht : t = if (s.chan ch).fillProgress + 1 = (s.chan ch).physLines then
        (s.modChan ch Channel.fillStep).raise .channelReady
      else s.modChan ch Channel.fillStep) :
    s.OnlyChannel t ch ∧ t.table = s.table ∧ t.chan ch = (s.chan ch).fillStep ∧
      t.causes = if (s.chan ch).fillProgress + 1 = (s.chan ch).physLines then s.causes ||| Cause.channelReady.single
        else s.causes := by
  have honly := State.onlyChannel_modChan s ch Channel.fillStep
  have hchan : (s.modChan ch Channel.fillStep).chan ch = (s.chan ch).fillStep := State.chan_modChan_same _ _ _
  subst ht
  split
  · exact ⟨honly.trans (State.onlyChannel_raise _ _ _), rfl, hchan, rfl⟩
  · exact ⟨honly, rfl, hchan, rfl⟩

theorem Channel.fillStep_spec {c : Channel} (hst : c.state = .initializing) : c.fillStep = { c with
    dram := c.fillStep.dram, demandCount := 0, fillProgress := c.fillProgress + 1
    state := if c.fillProgress + 1 = c.physLines then .online else .initializing } := by
  unfold Channel.fillStep
  rw [hst]
  rfl

end

/-- Settles O45: each kind of write from the rule of a write to its locations. -/
theorem poisonWriteBackAndFillWrites : Obligations.PoisonWriteBackAndFillWrites := by
  refine ⟨fun s ch o i => State.poisonSecond_iff i, fun s ch =>
    ⟨fun o rest locs hop ho hlocs hin => ?_, fun w hop hw hin => ?_, fun hst hlt hphys => ?_⟩⟩
  · rw [← locations_eq] at hlocs
    have hexec := exec_poisonWriteIssue_of hop ho (hlocs ▸ hin)
    obtain ⟨honly, hcauses⟩ := s.issuePoison_onlyChannel ch o
    obtain ⟨htable, hdrops, hchan⟩ := State.issuePoison_spec s ch o locs hlocs _ rfl
    have hdram := s.issuePoison_dram ch o
    rw [← hlocs] at hdram
    generalize s.issuePoison ch o = t at *
    have hdrop0 := hdrops.count_zero
    have hmig : (t.chan ch).migration = if s.reachesMigration ch o then
        (s.chan ch).migration.map (fun m => if m.line = o.line then m.take (poisonPlan o.cws) else m)
      else (s.chan ch).migration := by rw [hchan]
    obtain ⟨hholds, hkept⟩ := Channel.dram_of_writeLines hdram (by rw [hchan]) ch fun c hc => has_of_poisonPlan hc
    rw [WbEntry.reached_eq] at hdrops
    refine ⟨t, hexec, honly, hcauses, ?owed, hholds, hkept, htable, hdrops, fun m h r hm hh hr hsp hline hsrc => ?copy,
      fun m hm hno => ?noCopy, ⟨?frame, ?held⟩, by rw [hchan], by rw [hchan], hdrop0⟩
    case owed => rw [hchan, ho, List.tail_cons]
    case copy =>
      obtain ⟨g, htake, hg⟩ := Migration.take_of_copy (plan := poisonPlan o.cws) hh
      have hreach : s.reachesMigration ch o = true := State.reachesMigration_iff.mpr ⟨m, r, hm, hr, hsp, hline, hsrc⟩
      refine ⟨g, by rw [hmig, if_pos hreach, hm, Option.map_some, if_pos hline, htake], fun c => ?_⟩
      obtain ⟨hkeep, -, hmark, hover⟩ := hg c
      rw [poisonPlan_get] at hkeep hmark hover
      exact ⟨fun hn => hkeep (by rw [hn]; rfl),
        fun hy => ⟨hmark (by rw [hy]; rfl), hover (by rw [hy]; decide)⟩⟩
    case noCopy =>
      rw [hmig]
      split
      · next hreach =>
        obtain ⟨m', r, hm', hr, hsp, hline, hsrc⟩ := State.reachesMigration_iff.mp hreach
        obtain rfl : m = m' := Option.some.inj (hm.symm.trans hm')
        rcases hno with hnone | hne | hne | hne
        · rw [hm, Option.map_some, if_pos hline, Migration.take_of_no_copy hnone]
        · exact absurd hline hne
        · exact absurd hsrc hne
        · exact absurd hsp (hne r hr)
      · exact hm
    case frame =>
      conv_lhs => rw [hchan]
      rw [hmig]
      rw [hchan]
    case held =>
      rw [hmig]
      split
      · exact map_take_held _ _ _
      · rfl
  · have hframe := s.issueWriteBack_frame ch w _ rfl
    have hoffers := patrolOffers (s.chan ch).patrol.held ((s.chan ch).wbq.erase w)
    obtain ⟨hholds, hkept⟩ := Channel.dram_of_writeLines (s.issueWriteBack_dram ch w) (by rw [hframe]) ch
      fun c hc => has_of_writeBackPlan hc
    refine ⟨_, exec_writeBackIssue_of hop hw hin, (State.onlyChannel_modChan _ _ _).trans (State.onlyChannel_table _ _ _),
      rfl, hholds w.loc List.mem_cons_self w.cw w.content (by rw [writeBackPlan_get, if_pos rfl]; rfl), hkept, ?offers,
      removePoison_eq _ _ _ _, ⟨?frame, by rw [hframe]⟩, by rw [hframe], by rw [hframe], by rw [hframe], by rw [hframe],
      by rw [hframe]⟩
    case offers =>
      rw [State.issueWriteBack_chan]
      exact hoffers
    case frame => rw [hframe]
  · have hexec := exec_fillWriteIssue_of hst hlt hphys
    have hspec := Channel.fillStep_spec hst
    obtain ⟨honly, htable, hchan, hcauses⟩ := s.filled_spec ch _ rfl
    obtain ⟨hholds, hkept⟩ := Channel.dram_of_writeLines (c := s.chan ch) (d := (s.chan ch).fillStep)
      (locs := [.line (s.chan ch).fillProgress]) (plan := fillPlan) rfl rfl ch (cws := 0xFF) fun c _ => CwSet.has_full c
    refine ⟨_, hexec, honly, htable, fun c => ?zeros, by rw [hchan]; exact hkept, by rw [hchan]; exact hspec, hcauses⟩
    case zeros =>
      rw [hchan, hholds _ List.mem_cons_self c (encode 0) (by rw [fillPlan_get]; rfl), encode_zero]

end Sys2Proof.Machine
end

section
/-! SUPPORT. The ends of a migration: commit, retry and failure, each with what it leaves (R31, R32, R160 to R162). -/

namespace Sys2Proof.Machine

/-! ### A selection and the record that it cannot take -/

theorem State.rec?_select {s : State} {ch : ChanId} {n : Nat}
    (h : ∀ q ∈ s.table, q.key = { channel := ch, line := n } → q.spareWanted = false ∨ q.hold = true) :
    (s.select ch).rec? ch n = s.rec? ch n := by
  cases hm : (s.chan ch).migration with
  | some m => rw [State.select_busy (by rw [hm]; rfl)]
  | none =>
    rw [State.select_idle hm]
    cases hc : s.chosen ch with
    | none => rfl
    | some r =>
      obtain ⟨hr, hcand, -⟩ := State.chosen_spec hc
      cases (s.chan ch).lowestFree with
      | none => exact congrArg (findRec · _) (State.refuseSlots_spec s ch).2.1
      | some i =>
        refine findRec_updateRec_ne (f := fun x => x.enterSparing i false) (fun _ => rfl) fun hk => ?_
        simp only [State.isCandidate, Bool.and_eq_true, Bool.not_eq_true'] at hcand
        obtain ⟨⟨⟨⟨-, hwant⟩, hhold⟩, -⟩, -⟩ := hcand
        rcases h r hr hk.symm with hno | hno
        · rw [hno] at hwant; cases hwant
        · rw [hno] at hhold; cases hhold

theorem State.select_hasCause {s : State} {ch : ChanId} {k : Cause} (h : hasCause s.causes k = true) :
    hasCause (s.select ch).causes k = true := by
  rcases (State.select_spec s ch).2.1 with e | e <;> rw [e]
  · exact h
  · rw [hasCause_raise, h, Bool.true_or]

/-! ### What the steps of a Migration Unit leave -/

/-- What the steps of a Migration Unit leave of its channel. -/
def Channel.UnitKept (c d : Channel) : Prop :=
  d = { c with
    flights := d.flights, wbq := d.wbq, demandCount := d.demandCount, patrol := { c.patrol with held := d.patrol.held }
    slots := d.slots, migration := d.migration, exhausted := d.exhausted }

theorem Channel.UnitKept.trans {c d e : Channel} (h : c.UnitKept d) (k : d.UnitKept e) : c.UnitKept e := by
  unfold Channel.UnitKept at *
  rw [h] at k
  exact k

theorem Channel.setSlot_unitKept (c : Channel) (i : SlotId) (st : SlotState) : c.UnitKept (c.setSlot i st) := by
  obtain ⟨h, -⟩ := Channel.setSlot_spec c i st
  generalize c.setSlot i st = d at *
  unfold Channel.UnitKept
  rw [h]

/-- What the steps of a channel's Migration Unit leave, when its migration is that of one line (R160 to R162): of the table
the other records but those a selection makes SPARING, and of its channel what `Channel.UnitKept` says. -/
structure State.UnitStep (s t : State) (ch : ChanId) (n : Nat) : Prop where
  onlyChannel : s.OnlyChannel t ch
  causes : s.CausesKeptBut t [.spareExhausted, .migrationDone, .migrationFailed]
  chan : (s.chan ch).UnitKept (t.chan ch)
  keys : t.table.map (fun r => r.key) = s.table.map (fun r => r.key)
  records : ∀ r ∈ t.table, r.key ≠ { channel := ch, line := n } → r.key.channel ≠ ch ∨ r.state ≠ .sparing → r ∈ s.table

section
variable {s t u : State} {ch : ChanId} {n : Nat}

theorem State.UnitStep.trans (h : s.UnitStep t ch n) (k : t.UnitStep u ch n) : s.UnitStep u ch n where
  onlyChannel := h.onlyChannel.trans k.onlyChannel
  causes c hc := (k.causes c hc).trans (h.causes c hc)
  chan := h.chan.trans k.chan
  keys := k.keys.trans h.keys
  records r hr hk hc := h.records r (k.records r hr hk hc) hk hc

theorem State.UnitStep.modRec (s : State) (ch : ChanId) (n : Nat) (f : Record → Record)
    (hf : ∀ x : Record, (f x).key = x.key) : s.UnitStep (s.modRec ch n f) ch n where
  onlyChannel := State.onlyChannel_modRec _ _ _ _ _
  causes _ _ := rfl
  chan := rfl
  keys := updateRec_keys _ _ fun x hx => (hf x).trans hx
  records _ hr hk _ := mem_updateRec (fun x hx => (hf x).trans hx) hr hk

theorem State.UnitStep.modChan (s : State) (n : Nat) {f : Channel → Channel}
    (hf : (s.chan ch).UnitKept (f (s.chan ch))) : s.UnitStep (s.modChan ch f) ch n where
  onlyChannel := State.onlyChannel_modChan _ _ _
  causes _ _ := rfl
  chan := by rw [State.chan_modChan_same]; exact hf
  keys := rfl
  records _ hr _ _ := hr

theorem State.UnitStep.raise (s : State) (ch : ChanId) (n : Nat) {k : Cause}
    (hk : k ∈ [Cause.spareExhausted, .migrationDone, .migrationFailed]) : s.UnitStep (s.raise k) ch n where
  onlyChannel := State.onlyChannel_raise _ _ _
  causes c hc := by
    have hne : c ≠ k := fun e => hc (e ▸ hk)
    exact (hasCause_raise _ _ _).trans (by rw [decide_eq_false hne, Bool.or_false])
  chan := rfl
  keys := rfl
  records _ hr _ _ := hr

theorem State.UnitStep.refuseSlots (s : State) (ch : ChanId) (n : Nat) : s.UnitStep (s.refuseSlots ch) ch n := by
  unfold State.refuseSlots
  split
  · exact ⟨.refl _ _, fun _ _ => rfl, rfl, rfl, fun _ hr _ _ => hr⟩
  · exact (State.UnitStep.raise s ch n (by decide)).trans (.modChan _ n rfl)

theorem State.UnitStep.select (s : State) (ch : ChanId) (n : Nat) : s.UnitStep (s.select ch) ch n := by
  obtain ⟨honly, hcauses, hchan, -⟩ := State.select_spec s ch
  obtain ⟨hkeys, hrecs⟩ := s.select_table ch
  refine ⟨honly, fun c hc => ?_, ?_, hkeys, fun r hr _ => hrecs r hr⟩
  · have hne : c ≠ .spareExhausted := fun e => hc (by rw [e]; decide)
    rcases hcauses with e | e <;> rw [e]
    exact (hasCause_raise _ _ _).trans (by rw [decide_eq_false hne, Bool.or_false])
  · unfold Channel.UnitKept
    conv_lhs => rw [hchan]
    rw [hchan]

end

/-! ### The record and the slots of a standing migration -/

section
variable {s : State} {ch : ChanId} {m : Migration}

theorem State.SparingSound.of_evolves {t : State} (hs : s.SparingSound) (h : s.Evolves t) : t.SparingSound := by
  induction h with
  | refl => exact hs
  | tail _ hm ih => exact hm.sparingSound ih

/-- The record of a standing migration, by the migration's target and source (R15, R29, R146). -/
theorem State.SparingSound.rec?_of_migration (hs : s.SparingSound) (hm : (s.chan ch).migration = some m) :
    ∃ r p, s.rec? ch m.line = some r ∧ r ∈ s.table ∧ r.state = .sparing ∧ r.targetSlot = some m.target ∧
      r.spareSlot = m.source.slot? ∧ r.priorState = some p ∧ (r.spareSlot.isSome = true ↔ p = .spared) := by
  obtain ⟨hst, hwhole, -⟩ := State.sparingSound_iff.mp hs
  obtain ⟨r, hr, hk, htarget, hsrc, hsp⟩ := hs.record_of_migration hm
  obtain ⟨-, hprior, hspare⟩ := (hwhole r hr).sparing hsp
  obtain ⟨p, hp⟩ := Option.isSome_iff_exists.mp hprior
  rw [hp, Option.some_inj] at hspare
  refine ⟨r, p, hst.rec?_eq_some hr hk, hr, hsp, htarget, ?_, hp, hspare⟩
  rw [hsrc, Record.location_of_sparing hsp]
  cases r.spareSlot <;> rfl

theorem State.SparingSound.target_allocated (hs : s.SparingSound) (hm : (s.chan ch).migration = some m) :
    (s.chan ch).slots.get m.target = .allocated := by
  obtain ⟨r, hr, hk, htarget, -⟩ := hs.record_of_migration hm
  have h := hs.taken_of_names hr (.inr htarget)
  rw [hk] at h
  exact h

/-- The slot that a re-sparing leaves is ALLOCATED, and is not its target (R16). -/
theorem State.SparingSound.source_allocated (hs : s.SparingSound) (hm : (s.chan ch).migration = some m) {i : SlotId}
    (hi : m.source = .slot i) : (s.chan ch).slots.get i = .allocated ∧ i ≠ m.target := by
  obtain ⟨r, p, hrec, hr, -, htarget, hspare, -⟩ := hs.rec?_of_migration hm
  rw [hi] at hspare
  have hk := (findRec_some hrec).2
  have h := hs.taken_of_names hr (.inl hspare)
  rw [hk] at h
  exact ⟨h, fun e => ((State.sparingSound_iff.mp hs).2.1 r hr).2 i ⟨hspare, e ▸ htarget⟩⟩

end

end Sys2Proof.Machine
end

section
/-! SUPPORT. The decode of a standing migration's verify read: commit, retry and failure (R31, R32, R159 to R162). -/

namespace Sys2Proof.Machine

/-! ### Reads in flight at the end of a migration -/

theorem map_endMigration (fs : List Flight) :
    fs.map (fun f => { f with kind := f.kind.endMigration }) = markLate fs := by
  unfold markLate
  refine List.map_congr_left fun f _ => ?_
  cases f.kind <;> rfl

theorem markLate_movedBy (c d : Channel) (fs : List Flight) :
    (markLate fs).map (c.movedBy d) = markLate (fs.map (c.movedBy d)) := by
  unfold markLate
  rw [List.map_map, List.map_map]
  rfl

section
variable {s t : State} {ch : ChanId} {m : Migration}

/-- What a channel's selection leaves of its queues and slots (R141, R147). -/
theorem State.select_queues (s : State) (ch : ChanId) :
    ((s.select ch).chan ch).wbq = (s.chan ch).wbq ∧ ((s.select ch).chan ch).patrol = (s.chan ch).patrol ∧
      ((s.select ch).chan ch).demandCount = (s.chan ch).demandCount := by
  obtain ⟨-, -, h, -⟩ := State.select_spec s ch
  rw [h]
  exact ⟨rfl, rfl, rfl⟩

/-- A channel that looks at queues alone cannot tell what a selection has done. -/
theorem Channel.Drops.select {c : Channel} {n : Nat} {p : WbEntry → Bool} (h : c.Drops (s.chan ch) n p) :
    c.Drops ((s.select ch).chan ch) n p := by
  obtain ⟨hw, hp, hd⟩ := s.select_queues ch
  unfold Channel.Drops at *
  rw [hw, hp, hd]
  exact h

/-! ### Commit -/

theorem State.committed_unitStep (s : State) (ch : ChanId) (m : Migration) :
    s.UnitStep (s.committed ch m) ch m.line := by
  have h : s.UnitStep ((s.modRec ch m.line Record.commit).modChan ch (fun c => { c with migration := none })) ch m.line :=
    (State.UnitStep.modRec s ch m.line Record.commit fun _ => rfl).trans
      (.modChan (f := fun c => { c with migration := none }) _ _ rfl)
  unfold State.committed
  cases m.source with
  | slot old => exact h.trans (.modChan _ _ (Channel.setSlot_unitKept _ old _))
  | line _ => exact h

/-- The state in which a migration has committed and its cause is raised, before the selection that follows (R162). -/
def State.commitRaised (s : State) (ch : ChanId) (m : Migration) : State := (s.committed ch m).raise .migrationDone

theorem State.commitRaised_chan_line {n : Nat} (hsrc : m.source = .line n) :
    (s.commitRaised ch m).chan ch = { s.chan ch with migration := none } := by
  have h := (s.committed_chan ch m).1
  rw [hsrc] at h
  exact h

theorem State.commitRaised_chan_slot {i : SlotId} (hsrc : m.source = .slot i) :
    (s.commitRaised ch m).chan ch = Channel.setSlot { s.chan ch with migration := none } i .defective := by
  have h := (s.committed_chan ch m).1
  rw [hsrc] at h
  exact h

/-- A commit, whatever its source was (R31, R162). -/
theorem State.commitMigration_spec (s : State) (ch : ChanId) (m : Migration) :
    s.commitMigration ch m = (s.commitRaised ch m).select ch ∧ s.UnitStep (s.commitMigration ch m) ch m.line ∧
      hasCause (s.commitMigration ch m).causes .migrationDone = true ∧
      (s.commitMigration ch m).rec? ch m.line = (s.rec? ch m.line).map Record.commit := by
  have heq : s.commitMigration ch m = (s.commitRaised ch m).select ch := s.commitMigration_eq ch m
  have htable : (s.commitRaised ch m).table = updateRec s.table { channel := ch, line := m.line } Record.commit :=
    s.committed_table ch m
  rw [heq]
  refine ⟨rfl, ((s.committed_unitStep ch m).trans (.raise _ ch _ (by decide))).trans (.select _ ch _),
    State.select_hasCause ?_, (State.rec?_select fun q hq hk => .inl ?_).trans ?_⟩
  · exact (hasCause_raise _ _ _).trans (by simp)
  · rw [htable] at hq
    obtain ⟨x, -, rfl⟩ := List.mem_map.mp hq
    split
    · rfl
    · next hx => rw [if_neg hx] at hk; exact absurd hk hx
  · unfold State.rec?
    rw [htable]
    exact findRec_updateRec_same fun _ => rfl

/-- A commit of a line's first migration (R162). -/
theorem State.commitMigration_of_line {n : Nat} (hs : s.SparingSound) (hm : (s.chan ch).migration = some m)
    (hsrc : m.source = .line n) (ht : t = (s.commitRaised ch m).select ch) :
    (t.chan ch).slots.get m.target = .allocated ∧
      (t.chan ch).flights = (s.chan ch).flights.map ((s.chan ch).movedBy (t.chan ch)) ∧
      (t.chan ch).wbq = (s.chan ch).wbq ∧ (t.chan ch).patrol = (s.chan ch).patrol ∧
      (t.chan ch).demandCount = (s.chan ch).demandCount := by
  have hu := State.commitRaised_chan_line (s := s) (ch := ch) hsrc
  have hmoved := (s.commitRaised ch m).select_moved ch
  have htarget := hs.target_allocated hm
  have hqueues := (s.commitRaised ch m).select_queues ch
  have hkeeps := State.select_keeps (s := s.commitRaised ch m) (ch := ch) (i := m.target)
    (by rw [hu]; exact htarget ▸ nofun)
  rw [← ht, hu] at hmoved hqueues hkeeps
  exact ⟨hkeeps.trans htarget, hmoved, hqueues⟩

/-- The commit of a re-sparing: the slot it leaves becomes DEFECTIVE (R162). -/
theorem State.commitMigration_of_slot {i : SlotId} (hs : s.SparingSound) (hm : (s.chan ch).migration = some m)
    (hsrc : m.source = .slot i) (ht : t = (s.commitRaised ch m).select ch) :
    (t.chan ch).slots.get m.target = .allocated ∧ (t.chan ch).slots.get i = .defective ∧
      (t.chan ch).flights = (s.chan ch).flights.map ((s.chan ch).movedBy (t.chan ch)) ∧
      (s.chan ch).Drops (t.chan ch) (s.chan ch).demandCount (WbEntry.atSlot i) ∧
      ((s.commitRaised ch m).chan ch).migration = none ∧
      ((s.commitRaised ch m).chan ch).slots = (s.chan ch).slots.set i.val .defective ∧
      ((s.commitRaised ch m).chan ch).exhausted = false := by
  have hu := State.commitRaised_chan_slot (s := s) (ch := ch) hsrc
  obtain ⟨hset, hdrops⟩ := Channel.setSlot_spec { s.chan ch with migration := none } i .defective
  rw [← hu] at hset hdrops
  have hslots : ((s.commitRaised ch m).chan ch).slots = (s.chan ch).slots.set i.val .defective := by rw [hset]
  obtain ⟨hi, hne⟩ := hs.source_allocated hm hsrc
  have htarget : ((s.commitRaised ch m).chan ch).slots.get m.target = .allocated := by
    rw [hslots, SlotState.get_set, if_neg hne.symm]
    exact hs.target_allocated hm
  have hdef : ((s.commitRaised ch m).chan ch).slots.get i = .defective := by
    rw [hslots, SlotState.get_set, if_pos rfl]
  have hktarget := (State.select_keeps (by rw [htarget]; decide)).trans htarget
  have hkdef := (State.select_keeps (by rw [hdef]; decide)).trans hdef
  have hmoved := (s.commitRaised ch m).select_moved ch
  have hfl : ((s.commitRaised ch m).chan ch).flights = markMoved i (s.chan ch).flights := by rw [hset]
  have hsel := (hdrops (by decide)).select
  rw [← ht] at hktarget hkdef hmoved hsel
  refine ⟨hktarget, hkdef, ?_, hsel, by rw [hset], hslots, by rw [hset]⟩
  rw [hmoved, hfl]
  exact Channel.movedBy_after hslots (by rw [hkdef, hi]; decide) _

/-! ### Retry -/

/-- The state in which a failed verify's target slot has become DEFECTIVE (R160). -/
def State.targetFailed (s : State) (ch : ChanId) (m : Migration) : State :=
  s.modChan ch (fun c => c.setSlot m.target .defective)

theorem State.targetFailed_chan (s : State) (ch : ChanId) (m : Migration) :
    (s.targetFailed ch m).chan ch = (s.chan ch).setSlot m.target .defective := State.chan_modChan_same _ _ _

theorem State.targetFailed_unitStep (s : State) (ch : ChanId) (m : Migration) :
    s.UnitStep (s.targetFailed ch m) ch m.line := .modChan _ _ (Channel.setSlot_unitKept _ _ _)

/-- The failed target was not FREE, so that the slots that are FREE are those that were (R141, R160). -/
theorem State.targetFailed_free (hs : s.SparingSound) (hm : (s.chan ch).migration = some m) (i : SlotId) :
    ((s.targetFailed ch m).chan ch).slots.get i = .free ↔ (s.chan ch).slots.get i = .free := by
  rw [State.targetFailed_chan, Channel.setSlot_slots, SlotState.get_set]
  split
  · next h =>
    rw [h, hs.target_allocated hm]
    decide
  · rfl

/-- The migration of a new attempt (R160). -/
def Migration.again (m : Migration) (i : SlotId) : Migration :=
  { m with
    target := i, retry := m.retry + 1, phase := .copyRead, inFlight := false
    copyWritten := false, held := none, expected := 0 }

/-- The state in which a new attempt has begun (R160). -/
def State.attempted (s : State) (ch : ChanId) (m : Migration) (i : SlotId) : State :=
  ((s.targetFailed ch m).modRec ch m.line (fun r => { r with targetSlot := some i })).modChan ch (fun c =>
    { c.setSlot i .allocated with migration := some (m.again i) })

theorem State.failVerify_eq (s : State) (ch : ChanId) (m : Migration) : s.failVerify ch m =
    if m.retry < 2 then (s.targetFailed ch m).retryMigration ch m else (s.targetFailed ch m).failMigration ch m := by
  unfold State.failVerify State.targetFailed
  rfl

theorem State.retryMigration_some {i : SlotId} (h : (s.chan ch).lowestFree = some i) : s.retryMigration ch m =
    (s.modRec ch m.line (fun r => { r with targetSlot := some i })).modChan ch (fun c =>
      { c.setSlot i .allocated with migration := some (m.again i) }) := by
  unfold State.retryMigration
  rw [h]
  rfl

theorem State.retryMigration_none (h : (s.chan ch).lowestFree = none) :
    s.retryMigration ch m = (s.refuseSlots ch).failMigration ch m := by
  unfold State.retryMigration
  rw [h]

theorem State.failVerify_retry (hs : s.SparingSound) (hm : (s.chan ch).migration = some m) {i : SlotId}
    (hlt : m.retry < 2) (hfree : (s.chan ch).slots.get i = .free)
    (hleast : ∀ j : SlotId, j < i → (s.chan ch).slots.get j ≠ .free) : s.failVerify ch m = s.attempted ch m i := by
  have hlow : ((s.targetFailed ch m).chan ch).lowestFree = some i :=
    Channel.lowestFree_eq_some.mpr ⟨(State.targetFailed_free hs hm i).mpr hfree,
      fun j hj h => hleast j hj ((State.targetFailed_free hs hm j).mp h)⟩
  rw [State.failVerify_eq, if_pos hlt, State.retryMigration_some hlow]
  rfl

theorem State.attempted_unitStep (s : State) (ch : ChanId) (m : Migration) (i : SlotId) :
    s.UnitStep (s.attempted ch m i) ch m.line := by
  refine ((s.targetFailed_unitStep ch m).trans
    (.modRec _ _ _ (fun r => { r with targetSlot := some i }) fun _ => rfl)).trans (.modChan _ _ ?_)
  exact (Channel.setSlot_unitKept _ i .allocated).trans rfl

theorem State.attempted_rec (s : State) (ch : ChanId) (m : Migration) (i : SlotId) :
    (s.attempted ch m i).rec? ch m.line = (s.rec? ch m.line).map (fun r => { r with targetSlot := some i }) :=
  findRec_updateRec_same fun _ => rfl

/-- What a new attempt does to its channel (R160). -/
theorem State.attempted_spec (hs : s.SparingSound) (hm : (s.chan ch).migration = some m) {i : SlotId}
    (hfree : (s.chan ch).slots.get i = .free) (d : Channel) (hd : d = (s.attempted ch m i).chan ch) :
    d.slots.get m.target = .defective ∧ (s.chan ch).Drops d (s.chan ch).demandCount (WbEntry.atSlot m.target) ∧
      d.migration = some (m.again i) ∧
      d.slots = ((s.chan ch).slots.set m.target.val .defective).set i.val .allocated ∧ d.exhausted = false ∧
      d.flights = (s.chan ch).flights.map ((s.chan ch).movedBy d) := by
  have hchan : d = { ((s.chan ch).setSlot m.target .defective).setSlot i .allocated with
      migration := some (m.again i) } := by
    rw [hd, State.attempted, State.chan_modChan_same, State.chan_modRec, State.targetFailed_chan]
  obtain ⟨hset, hdrops⟩ := Channel.setSlot_spec (s.chan ch) m.target .defective
  have htarget := hs.target_allocated hm
  have hne : m.target ≠ i := fun e => absurd (htarget.symm.trans (e ▸ hfree)) (by decide)
  have hfirst : ((s.chan ch).setSlot m.target .defective).slots = (s.chan ch).slots.set m.target.val .defective :=
    Channel.setSlot_slots _ _ _
  have hstill : ((s.chan ch).setSlot m.target .defective).slots.get i = .free := by
    rw [hfirst, SlotState.get_set, if_neg hne.symm]
    exact hfree
  have hfl : ((s.chan ch).setSlot m.target .defective).flights = markMoved m.target (s.chan ch).flights := by rw [hset]
  generalize (s.chan ch).setSlot m.target .defective = c at *
  rw [Channel.setSlot_allocated] at hchan
  have hslots : d.slots = c.slots.set i.val .allocated := by rw [hchan]
  have hdef : d.slots.get m.target = .defective := by
    rw [hslots, SlotState.get_set, if_neg hne, hfirst, SlotState.get_set, if_pos rfl]
  refine ⟨hdef, ?_, by rw [hchan], by rw [hslots, hfirst], by rw [hchan], ?_⟩
  · rw [hchan]
    exact hdrops (by decide)
  · have hmarks : d.flights = markMoved i c.flights := by rw [hchan]; rfl
    rw [hmarks, ← Channel.movedBy_set hslots (by rw [hstill]; decide), hfl]
    exact Channel.movedBy_after hfirst (by rw [hdef, htarget]; decide) _

/-! ### Failure -/

/-- The state in which a migration has failed, before the selection that follows (R161). -/
def State.failRaised (s : State) (ch : ChanId) (m : Migration) : State :=
  (s.dropMigration ch m true).raise .migrationFailed

theorem State.failMigration_eq (s : State) (ch : ChanId) (m : Migration) :
    s.failMigration ch m = (s.failRaised ch m).select ch := rfl

theorem State.failRaised_unitStep (s : State) (ch : ChanId) (m : Migration) :
    s.UnitStep (s.failRaised ch m) ch m.line :=
  have hrec : s.UnitStep (s.modRec ch m.line (Record.leaveSparing · true)) ch m.line := .modRec s ch m.line _ fun _ => rfl
  have hdrop : s.UnitStep (s.dropMigration ch m true) ch m.line := hrec.trans (.modChan (f := fun c => { c with
    migration := none, flights := c.flights.map (fun f => { f with kind := f.kind.endMigration }) }) _ _ rfl)
  hdrop.trans (.raise (k := .migrationFailed) _ ch _ (by decide))

/-- A failed verify at the third failure, or without a FREE slot: the slots stand as they are when the migration fails (R148,
R160, R161). -/
theorem State.failVerify_fails (hs : s.SparingSound) (hm : (s.chan ch).migration = some m)
    (h : 2 ≤ m.retry ∨ ∀ i : SlotId, (s.chan ch).slots.get i ≠ .free) :
    ∃ w : State, s.failVerify ch m = (w.failRaised ch m).select ch ∧ s.UnitStep w ch m.line ∧ w.table = s.table ∧
      w.chan ch = { (s.chan ch).setSlot m.target .defective with exhausted := decide (m.retry < 2) } ∧
      (m.retry < 2 → hasCause w.causes .spareExhausted = true) := by
  have hset := (Channel.setSlot_spec (s.chan ch) m.target .defective).1
  by_cases hlt : m.retry < 2
  · have hnone : ((s.targetFailed ch m).chan ch).lowestFree = none :=
      Channel.lowestFree_eq_none.mpr fun i hi =>
        h.elim (by omega) fun hno => hno i ((State.targetFailed_free hs hm i).mp hi)
    have hretry : s.failVerify ch m = ((s.targetFailed ch m).refuseSlots ch).failMigration ch m := by
      rw [State.failVerify_eq, if_pos hlt, State.retryMigration_none hnone]
    have hfresh : ((s.targetFailed ch m).chan ch).exhausted = false := by rw [State.targetFailed_chan, hset]
    have hrefuse : (s.targetFailed ch m).refuseSlots ch =
        ((s.targetFailed ch m).raise .spareExhausted).modChan ch (fun c => { c with exhausted := true }) :=
      if_neg (by rw [hfresh]; decide)
    obtain ⟨-, htable, -, hchan⟩ := State.refuseSlots_spec (s.targetFailed ch m) ch
    refine ⟨_, hretry, (s.targetFailed_unitStep ch m).trans (.refuseSlots _ ch _), htable, ?_, fun _ => ?_⟩
    · rw [hchan, State.targetFailed_chan, decide_eq_true hlt]
    · rw [hrefuse]
      exact (hasCause_raise _ _ _).trans (by simp)
  · have hfail : s.failVerify ch m = (s.targetFailed ch m).failMigration ch m := by
      rw [State.failVerify_eq, if_neg hlt]
    refine ⟨_, hfail, s.targetFailed_unitStep ch m, rfl, ?_, fun h => absurd h hlt⟩
    rw [State.targetFailed_chan, decide_eq_false hlt]
    conv_lhs => rw [hset]
    conv_rhs => rw [hset]

/-- A failure returns the record to its prior state with hold set (R32, R161). -/
theorem State.failMigration_rec (s : State) (ch : ChanId) (m : Migration) :
    hasCause ((s.failRaised ch m).select ch).causes .migrationFailed = true ∧
      ((s.failRaised ch m).select ch).rec? ch m.line = (s.rec? ch m.line).map (Record.leaveSparing · true) := by
  refine ⟨State.select_hasCause ((hasCause_raise _ _ _).trans (by simp)),
    (State.rec?_select fun q hq hk => .inr ?_).trans (findRec_updateRec_same fun _ => rfl)⟩
  obtain ⟨x, -, rfl⟩ := List.mem_map.mp hq
  split
  · exact Bool.or_true _
  · next hx => rw [if_neg hx] at hk; exact absurd hk hx

/-- What a failure does to its channel, the selection that follows included (R142, R161, R163). -/
theorem State.failed_spec {w : State} (hs : s.SparingSound) (hm : (s.chan ch).migration = some m) {b : Bool}
    (hw : w.chan ch = { (s.chan ch).setSlot m.target .defective with exhausted := b })
    (ht : t = (w.failRaised ch m).select ch) :
    (t.chan ch).slots.get m.target = .defective ∧
      (s.chan ch).Drops (t.chan ch) (s.chan ch).demandCount (WbEntry.atSlot m.target) ∧
      (t.chan ch).flights = markLate ((s.chan ch).flights.map ((s.chan ch).movedBy (t.chan ch))) ∧
      ((w.failRaised ch m).chan ch).migration = none ∧
      ((w.failRaised ch m).chan ch).slots = (s.chan ch).slots.set m.target.val .defective ∧
      ((w.failRaised ch m).chan ch).exhausted = b := by
  have hmarks : ((s.chan ch).setSlot m.target .defective).flights = markMoved m.target (s.chan ch).flights := by
    rw [(Channel.setSlot_spec (s.chan ch) m.target .defective).1]
  have hu : (w.failRaised ch m).chan ch = { (s.chan ch).setSlot m.target .defective with
      exhausted := b, migration := none, flights := markLate (markMoved m.target (s.chan ch).flights) } := by
    rw [State.failRaised, State.chan_raise, State.chan_dropMigration, hw, map_endMigration, ← hmarks]
  have hslots : ((w.failRaised ch m).chan ch).slots = (s.chan ch).slots.set m.target.val .defective := by
    rw [hu]
    exact Channel.setSlot_slots _ _ _
  have hdef : ((w.failRaised ch m).chan ch).slots.get m.target = .defective := by
    rw [hslots, SlotState.get_set, if_pos rfl]
  have hkdef := (State.select_keeps (by rw [hdef]; decide)).trans hdef
  have hdrops : (s.chan ch).Drops ((w.failRaised ch m).chan ch) (s.chan ch).demandCount (WbEntry.atSlot m.target) := by
    rw [hu]
    exact (Channel.setSlot_spec (s.chan ch) m.target .defective).2 (by decide)
  have hmoved := (w.failRaised ch m).select_moved ch
  have hsel := hdrops.select
  have hfl : ((w.failRaised ch m).chan ch).flights = markLate (markMoved m.target (s.chan ch).flights) := by rw [hu]
  rw [← ht] at hkdef hmoved hsel
  refine ⟨hkdef, hsel, ?_, by rw [hu], hslots, by rw [hu]⟩
  rw [hmoved, hfl, markLate_movedBy,
    Channel.movedBy_after hslots (by rw [hkdef, hs.target_allocated hm]; decide)]

end

end Sys2Proof.Machine
end

section
/-! SUPPORT. The decode of a standing migration's verify read, its judgement put together (R159 to R162). -/

namespace Sys2Proof.Machine

theorem verifyPasses_iff {expected : CwSet} {reps : Vector Report 8} : verifyPasses expected reps = true ↔
    ∀ i : CwIndex, (reps.get i).verdict = if CwSet.has expected i then .poison else .clean := by
  unfold verifyPasses
  simp only [List.all_eq_true, List.mem_finRange, beq_iff_eq, true_implies]

section
variable {s t : State} {ch : ChanId} {m : Migration} {f : Flight} {rest : List Flight} {reps : Vector Report 8}

theorem exec_verifyReadDecode_standing (upsets : LineWords) (hm : (s.chan ch).migration = some m)
    (hfl : (s.chan ch).flights = f :: rest) (hkind : f.kind = .verify false) :
    exec (.verifyReadDecode ch upsets) s = .next (s.verifyDecode ch m f (reportsOf f.words upsets)) := by
  show execVerifyReadDecode ch upsets s = _
  simp only [execVerifyReadDecode, hfl, hkind, hm]

/-- A failed verify begins a new attempt on the lowest FREE slot, or the migration fails (R160, R161). -/
theorem State.failVerify_cases (s : State) (ch : ChanId) (m : Migration) :
    (∃ i : SlotId, m.retry < 2 ∧ (s.chan ch).slots.get i = .free ∧
      ∀ j : SlotId, j < i → (s.chan ch).slots.get j ≠ .free) ∨
    (2 ≤ m.retry ∨ ∀ i : SlotId, (s.chan ch).slots.get i ≠ .free) := by
  rcases Nat.lt_or_ge m.retry 2 with hlt | hge
  · cases hl : (s.chan ch).lowestFree with
    | some i => exact .inl ⟨i, hlt, Channel.lowestFree_eq_some.mp hl⟩
    | none => exact .inr (.inr (Channel.lowestFree_eq_none.mp hl))
  · exact .inr (.inl hge)

/-- Whichever way a failed verify ends, it is a run of the Migration Unit's own steps, and the target slot is DEFECTIVE
(R160, R161). -/
theorem State.failVerify_spec (hs : s.SparingSound) (hm : (s.chan ch).migration = some m)
    (ht : t = s.failVerify ch m) : s.UnitStep t ch m.line ∧ (t.chan ch).slots.get m.target = .defective ∧
      (s.chan ch).Drops (t.chan ch) (s.chan ch).demandCount (WbEntry.atSlot m.target) := by
  rcases s.failVerify_cases ch m with ⟨i, hlt, hfree, hleast⟩ | hno
  · rw [ht, State.failVerify_retry hs hm hlt hfree hleast]
    obtain ⟨hdef, hdrops, -⟩ := State.attempted_spec hs hm hfree _ rfl
    exact ⟨s.attempted_unitStep ch m i, hdef, hdrops⟩
  · obtain ⟨w, heq, hstep, -, hw, -⟩ := State.failVerify_fails hs hm hno
    rw [ht, heq]
    obtain ⟨hdef, hdrops, -⟩ := State.failed_spec hs hm hw rfl
    exact ⟨(hstep.trans (w.failRaised_unitStep ch m)).trans (.select _ ch _), hdef, hdrops⟩

/-- The channel of a verify read's decode once the delivery is made (R159, R168). -/
theorem State.verifyReports_chan (hm : (s.chan ch).migration = some m) (hfl : (s.chan ch).flights = f :: rest)
    (c : Channel) (hc : c = (s.migrationReports ch f reps).chan ch) : c = { s.chan ch with
      flights := rest, capture := c.capture, ceCount := c.ceCount, ueCount := c.ueCount } := by
  have htail : (s.chan ch).flights.tail = rest := by rw [hfl, List.tail_cons]
  have hcap := (State.captureRead_spec s ch .migration f.line f.loc none reps).2.2.2
  rw [State.migrationReports_chan (by rw [hm]; rfl), hcap] at hc
  rw [hc, ← htail]
  rfl

/-- What the Migration Unit's steps after the delivery leave of the state before it. -/
theorem State.UnitStep.verified (hm : (s.chan ch).migration = some m) (hline : f.line = m.line)
    (hfl : (s.chan ch).flights = f :: rest) (h : (s.migrationReports ch f reps).UnitStep t ch m.line) :
    s.OnlyChannel t ch ∧ (s.chan ch).KeptByDecode (t.chan ch) ∧ (t.chan ch).queue = (s.chan ch).queue ∧
      (t.chan ch).owed = (s.chan ch).owed ∧ (t.chan ch).patrol.current = (s.chan ch).patrol.current ∧
      s.TableKeptBut t ch m.line ∧ s.HandsOver t ch .migration m.line f.loc none reps ∧
      s.CausesKeptBut t [.ue, .ueCritical, .tableFull, .spareExhausted, .migrationDone, .migrationFailed] := by
  have frame := s.migrationReports_frame ch f reps
  obtain ⟨-, hhand⟩ := s.migrationReports_delivers_handsOver ch f reps
  have hchan := State.verifyReports_chan (reps := reps) hm hfl _ rfl
  have hcauses := frame.causes
  have htable := frame.table
  rw [hline] at htable hhand
  obtain ⟨honly, hunit, hstep, hkeys, hrecs⟩ := h
  unfold Channel.UnitKept at hstep
  have hheld : (t.chan ch).capture = ((s.migrationReports ch f reps).chan ch).capture ∧
      (t.chan ch).ceCount = ((s.migrationReports ch f reps).chan ch).ceCount ∧
      (t.chan ch).ueCount = ((s.migrationReports ch f reps).chan ch).ueCount := by
    rw [hstep]
    exact ⟨rfl, rfl, rfl⟩
  obtain ⟨hcapture, hce, hueCount⟩ := hheld
  have hands := hhand.keep hcapture hce hueCount (hunit _ (by decide)) (hunit _ (by decide))
  generalize (s.migrationReports ch f reps).chan ch = c at *
  rw [hchan] at hstep
  refine ⟨frame.onlyChannel.trans honly, ?kept, by rw [hstep], by rw [hstep], by rw [hstep], htable.keep hrecs hkeys,
    hands, fun k hk => ?causes⟩
  case kept =>
    unfold Channel.KeptByDecode
    rw [hstep]
  case causes =>
    simp only [List.mem_cons, List.not_mem_nil, or_false, not_or] at hk
    refine (hunit k ?_).trans (hcauses k ?_) <;> simp only [List.mem_cons, List.not_mem_nil, or_false, not_or] <;> tauto

end

/-- Settles O47: the delivery comes first, and then the judgement: commit, retry or failure. -/
theorem verifyCommitsRetriesOrFails : Obligations.VerifyCommitsRetriesOrFails := by
  intro s ch m upsets f rest reps hs hm hline hfl hkind hreps
  have hexec := exec_verifyReadDecode_standing upsets hm hfl hkind
  rw [← hreps] at hexec
  have hvs : (s.migrationReports ch f reps).SparingSound := hs.of_evolves (s.migrationReports_evolves ch f reps)
  have hvm := State.migrationReports_migration hm f reps
  have hchan := State.verifyReports_chan (reps := reps) hm hfl _ rfl
  obtain ⟨⟨hdelivered, -⟩, -⟩ := s.migrationReports_delivers_handsOver ch f reps
  rw [hline] at hdelivered
  have hrecs : (s.deliver ch m.line .migration reps).rec? ch m.line = (s.migrationReports ch f reps).rec? ch m.line :=
    congrArg (findRec · _) hdelivered.symm
  obtain ⟨r₀, p₀, hr₀, -, -, -, hspare₀, hp₀, hprior₀⟩ := hs.rec?_of_migration hm
  obtain ⟨r, p, hr, -, hsp, htarget, hspare, hp, hprior⟩ := hvs.rec?_of_migration hvm
  have hsame : p = p₀ := by
    have hiff : p = .spared ↔ p₀ = .spared := by rw [← hprior, ← hprior₀, hspare, hspare₀]
    cases p <;> cases p₀ <;> simp at hiff ⊢
  have hpass (h : ∀ i : CwIndex, (reps.get i).verdict = if CwSet.has m.expected i then .poison else .clean) :
      s.verifyDecode ch m f reps = (s.migrationReports ch f reps).commitMigration ch m :=
    if_pos (verifyPasses_iff.mpr h)
  have hfail (h : ∃ i : CwIndex, (reps.get i).verdict ≠ if CwSet.has m.expected i then .poison else .clean) :
      s.verifyDecode ch m f reps = (s.migrationReports ch f reps).failVerify ch m := by
    obtain ⟨i, hi⟩ := h
    exact if_neg fun hv => hi (verifyPasses_iff.mp hv i)
  have hstep : (s.migrationReports ch f reps).UnitStep (s.verifyDecode ch m f reps) ch m.line := by
    by_cases h : ∀ i : CwIndex, (reps.get i).verdict = if CwSet.has m.expected i then .poison else .clean
    · rw [hpass h]
      exact (State.commitMigration_spec _ ch m).2.1
    · rw [hfail (not_forall.mp h)]
      exact (State.failVerify_spec hvs hvm rfl).1
  obtain ⟨honly, hkept, hqueue, howed, hcurrent, htable, hhand, hcauses⟩ := hstep.verified hm hline hfl
  generalize s.migrationReports ch f reps = v at *
  generalize s.verifyDecode ch m f reps = t at *
  have hslots : (v.chan ch).slots = (s.chan ch).slots := by rw [hchan]
  have hmoved : ∀ d, (v.chan ch).movedBy d = (s.chan ch).movedBy d := Channel.movedBy_congr hslots
  have hdrops {d n q} (h : (v.chan ch).Drops d n q) : (s.chan ch).Drops d n q := by
    rw [hchan] at h
    exact h
  have hqueues : (v.chan ch).wbq = (s.chan ch).wbq ∧ (v.chan ch).patrol = (s.chan ch).patrol ∧
      (v.chan ch).demandCount = (s.chan ch).demandCount ∧ (v.chan ch).exhausted = (s.chan ch).exhausted ∧
      (v.chan ch).flights = rest := by
    rw [hchan]
    exact ⟨rfl, rfl, rfl, rfl, rfl⟩
  obtain ⟨hwbq, hpatrol, hcount, hexhausted, hrest⟩ := hqueues
  refine ⟨t, hexec, honly, hkept, hqueue, howed, hcurrent, htable, hhand, hcauses,
    ⟨r, p, hrecs.trans hr, hp, fun h => ?commitRec, fun h => ⟨fun i hlt hfree hleast => ?retryRec, fun hno => ?failRec⟩⟩,
    fun h => ?commit, fun h => ?fails⟩
  case commitRec =>
    rw [hpass h, (v.commitMigration_spec ch m).2.2.2, hr, Option.map_some, Record.commit, htarget]
  case retryRec =>
    rw [hfail h, State.failVerify_retry hvs hvm hlt (hslots ▸ hfree) (hslots ▸ hleast), State.attempted_rec, hr]
    rfl
  case failRec =>
    obtain ⟨w, heq, -, hw, -⟩ := State.failVerify_fails hvs hvm (hslots ▸ hno)
    have hwr : w.rec? ch m.line = some r := (congrArg (findRec · _) hw).trans hr
    rw [hfail h, heq, (w.failMigration_rec ch m).2, hwr, Option.map_some, Record.leaveSparing, hp, Bool.or_true]
    rfl
  case commit =>
    obtain ⟨heq, -, hdone, hrec⟩ := v.commitMigration_spec ch m
    rw [hr, Option.map_some] at hrec
    rw [← hpass h] at heq hdone hrec
    have hrecord : ∃ r, t.rec? ch m.line = some r ∧ r.state = .spared ∧ r.spareSlot = some m.target ∧
        r.targetSlot = none ∧ r.priorState = none ∧ r.score = 0 ∧ r.rep = 0 ∧ r.lastBit = none ∧
        r.spareWanted = false := ⟨_, hrec, rfl, htarget, rfl, rfl, rfl, rfl, rfl, rfl⟩
    cases hsrc : m.source with
    | line n =>
      obtain ⟨hkept, hflights, hw, hpat, hdemand⟩ := State.commitMigration_of_line hvs hvm hsrc heq
      have hu := State.commitRaised_chan_line (s := v) (ch := ch) hsrc
      refine ⟨hdone, hkept, hrecord, nofun, by rw [hflights, hmoved, hrest],
        fun _ _ => ⟨hw.trans hwbq, hpat.trans hpatrol, hdemand.trans hcount⟩, nofun, _, heq, by rw [hu], ?_, ?_⟩
      · rw [hu]
        exact hslots
      · rw [hu]
        exact hexhausted
    | slot i =>
      obtain ⟨hkept, hdef, hflights, hdrop, hidle, huslots, huexh⟩ := State.commitMigration_of_slot hvs hvm hsrc heq
      refine ⟨hdone, hkept, hrecord, fun j hj => ?_, by rw [hflights, hmoved, hrest], nofun, fun j hj => ?_, _, heq, hidle,
        huslots.trans (by rw [hslots]), huexh⟩
      · cases hj
        exact hdef
      · cases hj
        exact hcount ▸ hdrops hdrop
  case fails =>
    obtain ⟨-, hdef, hdrop⟩ := State.failVerify_spec hvs hvm (hfail h)
    refine ⟨hdef, hcount ▸ hdrops hdrop, fun i hlt hfree hleast => ?_, fun hno => ?_⟩
    · have heq := State.failVerify_retry hvs hvm hlt (hslots ▸ hfree) (hslots ▸ hleast)
      rw [← hfail h] at heq
      obtain ⟨-, -, hmig, htslots, hfresh, hflights⟩ := State.attempted_spec hvs hvm (hslots ▸ hfree) _
        (congrArg (State.chan · ch) heq)
      have hrec := v.attempted_rec ch m i
      rw [← heq, hr, Option.map_some] at hrec
      exact ⟨hmig, by rw [htslots, hslots], hfresh, by rw [hflights, hmoved, hrest], _, hrec, hsp, rfl⟩
    · obtain ⟨w, heq, -, hw, hwchan, hwcause⟩ := State.failVerify_fails hvs hvm (hslots ▸ hno)
      rw [← hfail h] at heq
      obtain ⟨-, -, hflights, hidle, huslots, huexh⟩ := State.failed_spec hvs hvm hwchan heq
      obtain ⟨hcause, hrec⟩ := w.failMigration_rec ch m
      have hwr : w.rec? ch m.line = some r := (congrArg (findRec · _) hw).trans hr
      rw [← heq] at hcause hrec
      rw [hwr, Option.map_some] at hrec
      refine ⟨hcause, by rw [hflights, hmoved, hrest], ⟨_, heq, hidle, by rw [huslots, hslots], huexh, fun hlt => ?_⟩,
        r₀, _, hr₀, hrec, ?_, Bool.or_true _, rfl, rfl, hspare.trans hspare₀.symm⟩
      · exact (hasCause_raise w.causes _ _).trans (by rw [hwcause hlt]; rfl)
      · show (r.priorState.getD .hot).toState = _
        rw [hp, hp₀, hsame]
        cases p₀ <;> rfl

end Sys2Proof.Machine
end

section
/-! SUPPORT. The state after reset satisfies each invariant. -/

namespace Sys2Proof.Machine

theorem State.reset_chan (ch : ChanId) : State.reset.chan ch = Channel.powerOn [] 8 := by
  have h : (Vector.replicate 4 ([] : List (Nat × Codeword))).get ch = [] := Vector.get_replicate (n := 4) [] ch
  rw [State.reset, State.powerOn_chan, h]

theorem State.tableSound_of_empty {s : State} (h : s.table = []) : s.TableSound := by
  rw [State.tableSound_iff, h]
  exact ⟨.nil, Nat.zero_le _, fun _ hr => absurd hr List.not_mem_nil⟩

/-- Without records, without ALLOCATED slots and with idle units there is nothing to disagree (R16, R29). -/
theorem State.reset_sparingSound : State.reset.SparingSound := by
  refine State.sparingSound_iff.mpr ⟨State.tableSound_of_empty rfl, fun _ hr => absurd hr List.not_mem_nil, fun ch => ?_⟩
  obtain ⟨hidle, hnone⟩ := Channel.powerOn_emptied [] 8
  unfold State.AgreesAt
  rw [State.reset_chan, hidle]
  exact ⟨fun i => iff_of_false (hnone i) fun ⟨_, h, _⟩ => absurd h List.not_mem_nil,
    fun _ h => absurd h List.not_mem_nil, fun _ h => absurd h List.not_mem_nil, nofun⟩

theorem State.reset_creditsSound : State.reset.CreditsSound := fun ch => by rw [State.reset_chan]; rfl

theorem State.reset_wbqsSound : State.reset.WbqsSound := fun ch => by
  rw [State.reset_chan]
  exact ⟨Nat.zero_le _, .nil⟩

theorem Channel.powerOn_patrolSound : (Channel.powerOn [] 8).PatrolSound := by
  unfold Channel.PatrolSound
  decide +kernel

theorem Channel.powerOn_inRange : (Channel.powerOn [] 8).InRange := by
  unfold Channel.InRange
  decide

theorem State.reset_numbersSound : State.reset.NumbersSound := by
  refine ⟨by unfold Settings.InRange; decide, fun c => ?policies, fun p => ?profiles, Nat.zero_le _, fun ch => ?chans⟩
  case policies =>
    unfold Policy.InRange
    cases c <;> decide
  case profiles => cases p <;> decide
  case chans => exact State.reset_chan ch ▸ Channel.powerOn_inRange

theorem State.reset_cadenceSound : State.reset.CadenceSound := by
  refine ⟨rfl, fun i hi => ?slot, by decide, by decide, nofun, fun _ _ => rfl, by decide, nofun⟩
  case slot =>
    cases hi
    decide

/-- Settles O55: invariant by invariant. -/
theorem resetStateIsSound : Obligations.ResetStateIsSound :=
  ⟨State.reset_sparingSound, State.reset_creditsSound, State.reset_wbqsSound,
    fun ch => State.reset_chan ch ▸ Channel.powerOn_patrolSound, State.reset_numbersSound, State.reset_cadenceSound,
    State.reset_dramSound, nofun⟩

end Sys2Proof.Machine
end

section
/-! SUPPORT. What one event makes of a record, and what a delivery with events makes of the state (R22 to R27, R49 to
R52). -/

namespace Sys2Proof.Machine

/-! ### One event at a record -/

section
variable {r : Record} {w : Settings} {p : Policy} {i : CwIndex}

theorem Record.applyEvent_of_retired (h : r.state = .retired) (v : Verdict) : (r.applyEvent w p i v).1 = r := by
  unfold Record.applyEvent
  rw [if_pos h]

theorem Record.applyEvent_clean : (r.applyEvent w p i .clean).1 = r := by
  unfold Record.applyEvent
  split <;> rfl

theorem Record.applyEvent_poison (h : r.state ≠ .retired) :
    (r.applyEvent w p i .poison).1 = { r with poison := r.poison ||| cwBit i } := by
  rw [Record.applyEvent, if_neg h]

theorem Record.applyEvent_corrected (h : r.state ≠ .retired) (q : BitPos) :
    (r.applyEvent w p i (.corrected q)).1 = (r.scoreCe w q).evaluate p := by
  rw [Record.applyEvent, if_neg h]

theorem Record.applyEvent_uncorrectable (h : r.state ≠ .retired) :
    (r.applyEvent w p i .uncorrectable).1 = r.scoreUe.evaluate p := by
  rw [Record.applyEvent, if_neg h]

/-- The two rows of R49's table as one: a repeat keeps the position that a new one stores. -/
theorem Record.scoreCe_eq (r : Record) (w : Settings) (q : BitPos) : r.scoreCe w q = { r with
    score := min 1023 (r.score + (if r.lastBit = some q then w.wRepeat else w.wCe))
    lastBit := some q
    rep := if r.lastBit = some q then min 255 (r.rep + 1) else 0
    age := 0 } := by
  unfold Record.scoreCe
  by_cases h : r.lastBit = some q
  · simp only [← h]
    rfl
  · simp only [if_neg h]
    rfl

end

/-! ### A delivery at the table -/

section
variable {s : State} {ch : ChanId} {n : Nat} {src : ReadSource} {reps : Vector Report 8}

theorem hasEvents_iff : hasEvents reps = true ↔ ∃ i : CwIndex, (reps.get i).verdict ≠ .clean := by
  rw [← not_forall, ← hasEvents_eq_false, Bool.not_eq_false]

theorem State.deliver_unnoticed (hev : ∃ i : CwIndex, (reps.get i).verdict ≠ .clean)
    (h : (s.record ch n src reps).2 = false) : s.deliver ch n src reps = (s.record ch n src reps).1 := by
  rw [State.deliver, if_pos (hasEvents_iff.mpr hev), h, if_neg Bool.false_ne_true]

theorem State.deliver_noticed (hev : ∃ i : CwIndex, (reps.get i).verdict ≠ .clean)
    (h : (s.record ch n src reps).2 = true) : s.deliver ch n src reps = (s.record ch n src reps).1.select ch := by
  rw [State.deliver, if_pos (hasEvents_iff.mpr hev), if_pos h]

/-- A delivery that the table records: the table becomes what R22, R25 and R26 say, and a notice selects (R52, R147). -/
theorem State.deliver_takes {r q : Record} {l : List Record} {p : Policy} (hp : p = s.policy (s.classOf ch n))
    (hq : q = r.afterEvents s.settings p reps) (hev : ∃ i : CwIndex, (reps.get i).verdict ≠ .clean)
    (ht : s.TableTakes ch n (originOf src) r q l) :
    (r.NoticeGiven q p → s.deliver ch n src reps = ({ s with table := l } : State).select ch) ∧
      (¬ r.NoticeGiven q p → s.deliver ch n src reps = { s with table := l }) := by
  rw [hq, hp] at ht ⊢
  obtain ⟨hstate, hnotice⟩ := State.record_takes ht
  rw [← hstate, ← hnotice, Bool.not_eq_true]
  exact ⟨State.deliver_noticed hev, State.deliver_unnoticed hev⟩

/-- A delivery that a full table without a candidate for eviction cannot record (R27). -/
theorem State.deliver_full (hev : ∃ i : CwIndex, (reps.get i).verdict ≠ .clean) (hr : s.rec? ch n = none)
    (hf : 1024 ≤ s.table.length) (hv : ∀ v ∈ s.table, v.state = .watch → v.pinned = false → v.poison ≠ 0) :
    s.deliver ch n src reps = s.raise .tableFull := by
  have hrec := State.record_full src reps hr hf hv
  rw [State.deliver_unnoticed hev (congrArg Prod.snd hrec), hrec]

end

/-- Settles O37: event by event at a record; a delivery with events is recorded, or raises TABLE_FULL. -/
theorem eventsScoreRecords : Obligations.EventsScoreRecords := by
  refine ⟨fun r w p i q v => ⟨fun h => Record.applyEvent_of_retired h v, Record.applyEvent_clean, fun h =>
    ⟨Record.applyEvent_poison h, fun n hn => ?ce, Record.applyEvent_uncorrectable h⟩⟩,
    fun s ch n src reps o p ho hp => ⟨fun h => State.deliver_clean h s ch n src, fun hev =>
      ⟨fun r q l hq ht => ?takes, fun hr hf hv => State.deliver_full hev hr hf hv⟩⟩⟩
  case ce =>
    rw [Record.applyEvent_corrected h, Record.scoreCe_eq, ← hn]
    rfl
  case takes =>
    have horigin : o = originOf src := by
      rw [ho]
      cases src <;> rfl
    exact State.deliver_takes hp hq hev (horigin ▸ ht)

end Sys2Proof.Machine
end

section
/-! SUPPORT. Pass ends: what R108's table makes of the engine, and what the decay leaves of each record (R54 to R57). -/

namespace Sys2Proof.Machine

section
variable {s : State} {ch : ChanId} {r d : Record}

/-- What a pass end keeps of the table: each record as the decay's arithmetic leaves it, but those that fade (R54, R57). -/
theorem State.mem_endPass_table :
    d ∈ (s.endPass ch).table ↔ (∃ r ∈ s.table, s.decayed ch r = d) ∧ d.fadesOn ch = false := by
  rw [State.endPass_table, State.decay_table_eq, List.mem_filter, List.mem_map, Bool.not_eq_eq_eq_not, Bool.not_true]

theorem RecState.decays_iff (st : RecState) : st.decays = true ↔ st = .watch ∨ st = .hot ∨ st = .spared := by
  cases st <;> decide

/-- A record that the decay passes by stays as it is (R54). -/
theorem State.mem_endPass_of_passedBy (hr : r ∈ s.table)
    (h : r.key.channel ≠ ch ∨ r.state = .sparing ∨ r.state = .retired) : r ∈ (s.endPass ch).table := by
  refine State.mem_endPass_table.mpr ⟨⟨r, hr, if_neg ?_⟩, ?_⟩
  · rintro ⟨hc, hd⟩
    rw [RecState.decays_iff] at hd
    rcases h with h | h | h
    · exact h hc
    all_goals simp [h] at hd
  · rcases h with h | h | h <;> simp [Record.fadesOn, Record.fades, h]

/-- A record that the decay covers, after R55 and R56. -/
theorem State.decayed_covered (hc : r.key.channel = ch) (hst : r.state = .watch ∨ r.state = .hot ∨ r.state = .spared) :
    s.decayed ch r = r.decay s.settings.decayShift (s.policy (s.classOf ch r.key.line)) := by
  rw [State.decayed, if_pos ⟨hc, (RecState.decays_iff _).mpr hst⟩, hc]

theorem Record.fadesOn_iff (hc : r.key.channel = ch) :
    r.fadesOn ch = true ↔ r.state = .watch ∧ r.score = 0 ∧ r.pinned = false ∧ r.poison = 0 := by
  simp [Record.fadesOn, Record.fades, hc, and_assoc]

/-- A line whose record fades has none after the pass end, since no other record has its key (R57). -/
theorem State.endPass_rec?_none (hs : s.TableSound) (hr : r ∈ s.table) (hc : r.key.channel = ch)
    (hf : (s.decayed ch r).fadesOn ch = true) : (s.endPass ch).rec? ch r.key.line = none := by
  refine State.rec?_eq_none fun q hq hk => ?_
  obtain ⟨⟨x, hx, rfl⟩, hkept⟩ := State.mem_endPass_table.mp hq
  have hkey : x.key = r.key := by
    rw [← (s.decayed_like ch x).key, hk, ← hc]
  rw [hs.unique hx hr hkey, hf] at hkept
  cases hkept

end

/-- Settles O51: the engine by its state and mode, the table record by record. -/
theorem passEndDecaysRecords : Obligations.PassEndDecaysRecords := by
  intro s ch
  have hchan := s.endPass_chan ch
  have hcauses := s.endPass_causes ch
  refine ⟨⟨(s.chan ch).patrol.endPass.state, (s.chan ch).patrol.endPass.startWait, hchan, ?runningSingle,
      ?runningContinuous, ?haltingSingle, ?haltingContinuous⟩,
    by rw [hchan]; rfl, by rw [hchan]; rfl, fun hm => by rw [hcauses, if_pos hm],
    fun hm => by rw [hcauses, hm]; rfl, s.endPass_onlyChannel ch, fun r hr h => State.mem_endPass_of_passedBy hr h,
    fun r d p n hr hc hst hp hn hd => ?decay⟩
  case runningSingle | runningContinuous | haltingSingle | haltingContinuous =>
    intro hstate hmode
    rw [PatrolEngine.endPass, hstate, hmode]
    exact ⟨rfl, rfl⟩
  case decay =>
    have hdecayed : s.decayed ch r = d := by
      rw [State.decayed_covered hc hst, ← hp, hd, hn]
      rfl
    have hfades := Record.fadesOn_iff (r := d) (hdecayed ▸ ((s.decayed_like ch r).key ▸ hc))
    refine ⟨fun h => State.mem_endPass_table.mpr ⟨⟨r, hr, hdecayed⟩, ?_⟩, fun h hs => ?_⟩
    · rwa [← hfades, Bool.not_eq_true] at h
    · exact State.endPass_rec?_none hs hr hc (hdecayed ▸ hfades.mpr h)

end Sys2Proof.Machine
end

section
/-! SUPPORT. The Region Map: the class of a key, and the commands that store and read windows and class policies (R61 to
R71). -/

namespace Sys2Proof.Machine

/-! ### Codes outside their lists (R191) -/

theorem windowArg_of_eight_le {b : Byte} (h : 8 ≤ b.toNat) : windowArg b = none :=
  dif_neg (Nat.not_lt.mpr h)

theorem channelSetArg_of_sixteen_le {b : Byte} (h : 16 ≤ b.toNat) : channelSetArg b = none :=
  if_neg (Nat.not_lt.mpr h)

theorem classArg_of_four_le {b : Byte} (h : 4 ≤ b.toNat) : classArg b = none := by
  unfold classArg
  split
  case h_5 => rfl
  all_goals omega

/-! ### The largest visible line count (R68) -/

theorem foldl_visible_le_iff (s : State) (cs : BitVec 4) (n : Nat) (l : List ChanId) (m : Nat) :
    l.foldl (fun m ch => if cs.getLsbD ch.val then max m (s.chan ch).visible else m) m ≤ n ↔
      m ≤ n ∧ ∀ ch ∈ l, cs.getLsbD ch.val = true → (s.chan ch).visible ≤ n := by
  induction l generalizing m with
  | nil => simp
  | cons ch l ih =>
    rw [List.foldl_cons, ih, List.forall_mem_cons]
    split
    · next hbit => rw [max_le_iff, and_assoc, imp_iff_right hbit]
    · next hbit => simp only [hbit, IsEmpty.forall_iff, true_and, Bool.false_eq_true]

theorem State.largestVisible_le_iff (s : State) (cs : BitVec 4) (n : Nat) :
    s.largestVisible cs ≤ n ↔ ∀ ch : ChanId, cs.getLsbD ch.val = true → (s.chan ch).visible ≤ n := by
  unfold State.largestVisible
  simp only [foldl_visible_le_iff, Nat.zero_le, true_and, List.mem_finRange, true_implies]

theorem State.largestVisible_eq {s : State} {cs : BitVec 4} {vis : Nat}
    (hle : ∀ ch : ChanId, cs.getLsbD ch.val = true → (s.chan ch).visible ≤ vis)
    (hmem : ∃ ch : ChanId, cs.getLsbD ch.val = true ∧ (s.chan ch).visible = vis) : s.largestVisible cs = vis := by
  obtain ⟨ch, hbit, hvis⟩ := hmem
  exact Nat.le_antisymm ((s.largestVisible_le_iff cs vis).mpr hle)
    (hvis ▸ (s.largestVisible_le_iff cs _).mp le_rfl ch hbit)

/-! ### REGION_SET (R68) -/

section
variable {s : State} {i : Fin 8} {en : Bool} {cs : BitVec 4} {first last : BitVec 32} {cls : MemClass}

theorem regionSetReply_codes :
    regionSetReply (BitVec.ofNat 8 i.val) (yesNoByte en) (cs.setWidth 8) first last cls.byte s =
      regionStore i en cs first.toNat last.toNat cls s := by
  simp only [regionSetReply, windowArg_ofNat, yesNoArg_byte, channelSetArg_setWidth, classArg_byte]

theorem regionSetReply_badCode {index enabled chans cls : Byte}
    (h : 8 ≤ index.toNat ∨ 2 ≤ enabled.toNat ∨ 16 ≤ chans.toNat ∨ 4 ≤ cls.toNat) :
    regionSetReply index enabled chans first last cls s = refuse s .range := by
  unfold regionSetReply
  split
  case h_2 => rfl
  case h_1 hindex henabled hchans hcls =>
    rcases h with h | h | h | h
    · rw [windowArg_of_eight_le h] at hindex; cases hindex
    · rw [yesNoArg_of_two_le h] at henabled; cases henabled
    · rw [channelSetArg_of_sixteen_le h] at hchans; cases hchans
    · rw [classArg_of_four_le h] at hcls; cases hcls

theorem regionStore_refused {f l : Nat} (h : l < f ∨ (cs ≠ 0 ∧ s.largestVisible cs ≤ f)) :
    regionStore i en cs f l cls s = refuse s .range := by
  unfold regionStore
  by_cases hlt : l < f
  · rw [if_pos hlt]
  · rw [if_neg hlt, if_pos (h.resolve_left hlt)]

theorem regionStore_stored {f l : Nat} {w : Window} (hle : f ≤ l) (h : cs = 0 ∨ f < s.largestVisible cs)
    (hw : w = { enabled := en, channels := cs, first := f, last := storedLast s cs l, cls := cls }) :
    regionStore i en cs f l cls s =
      { state := s.setWindow i w, result := if w.last = l then .ok else .clamped, payload := windowReadout i w
        selects := [] } := by
  have hsecond : ¬ (cs ≠ 0 ∧ s.largestVisible cs ≤ f) := by
    rintro ⟨hcs, hvis⟩
    exact absurd (h.resolve_left hcs) (Nat.not_lt.mpr hvis)
  subst hw
  unfold regionStore
  rw [if_neg (Nat.not_lt.mpr hle), if_neg hsecond]
  simp only [okOrClamped_ne]

end

/-! ### The window readout (R192) -/

section
variable (i : Fin 8) (w : Window)

/-- Each field is found by passing over the fields before it. -/
theorem windowReadout_fields :
    payloadByte (windowReadout i w) 0 = BitVec.ofNat 8 i.val ∧
      payloadByte (windowReadout i w) 1 = yesNoByte w.enabled ∧
      payloadByte (windowReadout i w) 2 = w.channels.setWidth 8 ∧
      payloadQuad (windowReadout i w) 3 = BitVec.ofNat 32 w.first ∧
      payloadQuad (windowReadout i w) 7 = BitVec.ofNat 32 w.last ∧
      payloadByte (windowReadout i w) 11 = w.cls.byte := by
  unfold payloadByte payloadQuad windowReadout
  refine ⟨?_, ?_, ?_, ?_, ?_, ?_⟩
  all_goals
    repeat rw [BitVec.extractLsb'_append_eq_of_add_le (by decide)]
    exact BitVec.extractLsb'_append_eq_left

end

/-- Settles O30: the codes read back, then the checks of R68 in order and the window that is stored. -/
theorem regionCommands : Obligations.RegionCommands := by
  intro s e i hready
  refine ⟨fun en cs first last cls vis hle hmem => ?set, fun index enabled chans cls first last h => ?badCode,
    fun index h => ?badIndex, ?get, fun w hfirst hlast => ?readout⟩
  case set =>
    have hvis : cs ≠ 0 → s.largestVisible cs = vis := fun hcs => State.largestVisible_eq hle (hmem hcs)
    refine ⟨fun h => ?refused, fun hfl h n w hn hw => ?stored⟩
    case refused =>
      have h' : last.toNat < first.toNat ∨ (cs ≠ 0 ∧ s.largestVisible cs ≤ first.toNat) :=
        h.imp_right fun ⟨hcs, hge⟩ => ⟨hcs, (hvis hcs).trans_le hge⟩
      exact State.answer_refuse hready (regionSetReply_codes.trans (regionStore_refused h'))
    case stored =>
      have hlast : n = storedLast s cs last.toNat := by
        rw [hn, storedLast]
        split
        · rfl
        · next hcs => rw [hvis hcs]
      have h' : cs = 0 ∨ first.toNat < s.largestVisible cs := by
        by_cases hcs : cs = 0
        · exact .inl hcs
        · exact .inr ((h.resolve_left hcs).trans_eq (hvis hcs).symm)
      have hwlast : w.last = n := by rw [hw]
      rw [← hwlast]
      exact State.answer_plain hready (regionSetReply_codes.trans (regionStore_stored hfl h' (hlast ▸ hw)))
  case badCode => exact State.answer_refuse hready (regionSetReply_badCode h)
  case badIndex =>
    exact State.answer_refuse hready (by rw [regionGetReply, windowArg_of_eight_le h])
  case get => exact State.answer_reply hready (by rw [regionGetReply, windowArg_ofNat])
  case readout =>
    obtain ⟨hindex, henabled, hchannels, hf, hl, hcls⟩ := windowReadout_fields i w
    refine ⟨hindex, henabled, hchannels, ?_, ?_, hcls⟩
    · rw [hf, BitVec.toNat_ofNat, Nat.mod_eq_of_lt hfirst]
    · rw [hl, BitVec.toNat_ofNat, Nat.mod_eq_of_lt hlast]

/-! ### The class of a key (R61, R62) -/

theorem Window.covers_iff (w : Window) (ch : ChanId) (line : Nat) : w.covers ch line = true ↔
    w.enabled = true ∧ w.channels.getLsbD ch.val = true ∧ w.first ≤ line ∧ line ≤ w.last := by
  simp only [Window.covers, Bool.and_eq_true, decide_eq_true_eq, and_assoc]

section
variable {s : State} {ch : ChanId} {line : Nat}

theorem State.classOf_of_lowest {i : Fin 8} (hi : (s.windows.get i).covers ch line = true)
    (hlow : ∀ j : Fin 8, j < i → (s.windows.get j).covers ch line = false) :
    s.classOf ch line = (s.windows.get i).cls := by
  have hfind : s.windows.toList.find? (fun w => w.covers ch line) = some (s.windows.get i) :=
    List.find?_eq_some_iff_getElem.mpr ⟨hi, i.val, by simp, by simp [Vector.get_eq_getElem],
      fun j hj => by simpa [Vector.get_eq_getElem] using hlow ⟨j, hj.trans i.isLt⟩ hj⟩
  unfold State.classOf classIn
  rw [hfind]

theorem State.classOf_of_uncovered (h : ∀ i : Fin 8, (s.windows.get i).covers ch line = false) :
    s.classOf ch line = .standard := by
  have hfind : s.windows.toList.find? (fun w => w.covers ch line) = none := by
    refine List.find?_eq_none.mpr fun w hw => ?_
    obtain ⟨i, hi, rfl⟩ := Vector.getElem_of_mem (Vector.mem_toList_iff.mp hw)
    exact Bool.not_eq_true _ ▸ h ⟨i, hi⟩
  unfold State.classOf classIn
  rw [hfind]

end

/-! ### CLASS_SET and CLASS_GET (R70, R71) -/

/-- The two fixed items of a class: only UNSCRUBBED is not patrolled, and only CRITICAL raises UE_CRITICAL (R63). -/
theorem classReadout_eq (c : MemClass) (p : Policy) :
    classReadout c p = c.byte ++ (BitVec.ofNat 16 p.tHot ++ (BitVec.ofNat 16 p.tSpare ++ (yesNoByte p.autoSpare ++
      (yesNoByte p.demandWb ++ (yesNoByte (decide (c ≠ .unscrubbed)) ++
        (yesNoByte (decide (c = .critical)) ++ 0#88)))))) := by
  cases c <;> rfl

section
variable {s : State} {c : MemClass} {tHot tSpare : BitVec 16}

theorem classSetReply_codes (a w : Bool) {p : Policy} (hp : p = storedPolicy tHot.toNat tSpare.toNat a w) :
    classSetReply c.byte tHot tSpare (yesNoByte a) (yesNoByte w) s =
      { state := s.setPolicy c p
        result := if p.tHot = tHot.toNat ∧ p.tSpare = tSpare.toNat then .ok else .clamped
        payload := classReadout c p, selects := [] } := by
  subst hp
  simp only [classSetReply, classArg_byte, yesNoArg_byte, okOrClamped, Bool.or_eq_true, decide_eq_true_eq,
    ← not_and_or, ite_not]

theorem classSetReply_badCode {cls a w : Byte} (h : 4 ≤ cls.toNat ∨ 2 ≤ a.toNat ∨ 2 ≤ w.toNat) :
    classSetReply cls tHot tSpare a w s = refuse s .range := by
  unfold classSetReply
  split
  case h_2 => rfl
  case h_1 hcls ha hw =>
    rcases h with h | h | h
    · rw [classArg_of_four_le h] at hcls; cases hcls
    · rw [yesNoArg_of_two_le h] at ha; cases ha
    · rw [yesNoArg_of_two_le h] at hw; cases hw

end

/-- Settles O31: the first window found is the lowest, and the policy that CLASS_SET stores is the one it answers. -/
theorem classLookupAndCommands : Obligations.ClassLookupAndCommands := by
  refine ⟨Window.covers_iff, fun s ch line =>
    ⟨fun i hi hlow => State.classOf_of_lowest hi hlow, State.classOf_of_uncovered⟩, fun s e c hready =>
    ⟨fun tHot tSpare a w h k hh hk => ?set, fun cls a w tHot tSpare h => ?badCode, fun cls h => ?badClass, ?get⟩⟩
  case set =>
    have hp : { tHot := h, tSpare := k, autoSpare := a, demandWb := w } =
        storedPolicy tHot.toNat tSpare.toNat a w := by
      rw [hk, hh]
      rfl
    have hreply := classSetReply_codes (s := s) (c := c) a w hp
    rw [classReadout_eq] at hreply
    exact State.answer_plain hready hreply
  case badCode => exact State.answer_refuse hready (classSetReply_badCode h)
  case badClass => exact State.answer_refuse hready (by rw [classGetReply, classArg_of_four_le h])
  case get =>
    have hreply : classGetReply c.byte s = reply s (classReadout c (s.policy c)) := by
      rw [classGetReply, classArg_byte]
    rw [classReadout_eq] at hreply
    exact State.answer_reply hready hreply

end Sys2Proof.Machine
end

section
/-! SUPPORT. The power-on reset: what RESET_ASSERT and RESET_END leave (R201 to R203). -/

namespace Sys2Proof.Machine

section
variable (s : State) (ch : ChanId)

theorem State.powerOnAgain_chan : s.powerOnAgain.chan ch = Channel.powerOn (s.chan ch).dram 8 := by
  rw [State.powerOnAgain, State.powerOn_chan]
  show Channel.powerOn (s.chans.map (fun c => c.dram))[ch.val] 8 = _
  rw [Vector.getElem_map]
  rfl

/-- No slot is open while RESET is held, so that the budgets are 0 (R124). -/
theorem State.heldInReset_chan : s.heldInReset.chan ch = Channel.powerOn (s.chan ch).dram 0 := by
  have hclosed : s.heldInReset.chan ch = (s.powerOnAgain.chan ch).withBudget 0 := State.chan_modAllChans _ _ _
  rw [hclosed, State.powerOnAgain_chan]
  rfl

end

section
variable {s : State}

theorem State.alertLine_of_reset (h : s.resetAsserted = true) : s.alertLine = false := by
  rw [State.alertLine, h]
  rfl

theorem execResetEnd_released (h : s.resetAsserted = false) (csLow : Bool) :
    execResetEnd csLow s = .next s :=
  if_neg (by rw [h]; decide)

theorem execResetEnd_asserted (h : s.resetAsserted = true) (csLow : Bool) :
    execResetEnd csLow s = .next { s.powerOnAgain with shift := if csLow then .ignoring else .empty } :=
  if_pos h

end

theorem Channel.powerOn_slots (dram : List (Nat × Codeword)) (budget : Nat) (i : SlotId) :
    (Channel.powerOn dram budget).slots.get i = .free :=
  Vector.get_replicate (n := 512) _ i

theorem State.reset_window (i : Fin 8) : State.reset.windows.get i = Window.powerOn :=
  Vector.get_replicate (n := 8) _ i

/-- Settles O54: the power-on state item by item, the state while RESET is held, and the state after it. -/
theorem resetRestoresPowerOn : Obligations.ResetRestoresPowerOn := by
  refine ⟨State.reset_chan, fun dram budget c hc => ?channel, State.reset_window, ⟨rfl, rfl, rfl, rfl⟩,
    ⟨rfl, rfl, rfl, rfl⟩, rfl, rfl, rfl, rfl, rfl, rfl, rfl, rfl, rfl, rfl, fun s => ?asserted⟩
  case channel =>
    subst hc
    exact ⟨rfl, rfl, rfl, rfl, rfl, rfl, rfl, rfl, rfl, rfl, rfl, rfl, Channel.powerOn_slots dram budget, rfl, rfl,
      rfl, rfl, rfl, rfl, rfl⟩
  case asserted =>
    refine ⟨s.heldInReset, rfl, rfl, State.alertLine_of_reset rfl, rfl, rfl, rfl, s.heldInReset_chan,
      fun h csLow => execResetEnd_released h csLow, fun h csLow => ⟨_, execResetEnd_asserted h csLow, rfl, rfl, rfl,
        fun ch => ?_⟩⟩
    rw [State.reset_chan]
    exact s.powerOnAgain_chan ch

end Sys2Proof.Machine
end

section
/-! SUPPORT. What every command leaves sound on the demand path: the sum of requests and credits, the Write-back
Queue and DRAM's image (R78, R91), operation by operation; and that it leaves the queue of waiting commands alone.
-/

namespace Sys2Proof.Machine

/-! ### A Write-back Queue that takes offers and loses entries (R91, R92) -/

/-- What WbqSound says, of a list of entries. -/
def WbqList (q : List WbEntry) : Prop := q.length ≤ 4 ∧ q.Pairwise (fun a b => a.same b = false)

theorem Channel.wbqSound_iff {c : Channel} : c.WbqSound ↔ WbqList c.wbq := Iff.rfl

theorem WbqList.nil : WbqList [] := ⟨Nat.zero_le 4, .nil⟩

/-- Entries that leave keep the rest sound. -/
theorem WbqList.sublist {q r : List WbEntry} (h : WbqList q) (hr : r.Sublist q) : WbqList r :=
  ⟨hr.length_le.trans h.1, h.2.sublist hr⟩

/-- An offer that is taken keeps the queue sound: its place is an earlier entry's, or the queue had room and no such
entry. -/
theorem WbqTakes.sound {q r : List WbEntry} {e : WbEntry} (h : WbqTakes q e r) (hq : WbqList q) : WbqList r := by
  obtain ⟨hlen, hpair⟩ := hq
  cases h with
  | replaces _ =>
    refine ⟨by rwa [List.length_map], List.pairwise_map.mpr (hpair.imp fun {a b} hab => ?_)⟩
    have hplace : ∀ x : WbEntry,
        (if x.loc = e.loc ∧ x.cw = e.cw then { x with content := e.content } else x).loc = x.loc ∧
        (if x.loc = e.loc ∧ x.cw = e.cw then { x with content := e.content } else x).cw = x.cw := by
      intro x
      split <;> exact ⟨rfl, rfl⟩
    unfold WbEntry.same at hab ⊢
    rw [(hplace a).1, (hplace a).2, (hplace b).1, (hplace b).2]
    exact hab
  | joins hnone hroom =>
    refine ⟨by rw [List.length_append]; exact hroom, List.pairwise_append.mpr ⟨hpair, List.pairwise_singleton _ _, ?_⟩⟩
    intro x hx y hy
    rw [List.mem_singleton.mp hy]
    simpa [WbEntry.same] using hnone x hx

theorem DemandOffers.sound {q es r : List WbEntry} (h : DemandOffers q es r) (hq : WbqList q) : WbqList r := by
  induction h with
  | done => exact hq
  | taken _ _ _ _ _ ht _ ih => exact ih (ht.sound hq)
  | dropped _ _ _ _ _ _ ih => exact ih hq

theorem PatrolOffers.sound {q es r h : List WbEntry} (ho : PatrolOffers q es r h) (hq : WbqList q) : WbqList r := by
  induction ho with
  | done => exact hq
  | taken _ _ _ _ _ _ ht _ ih => exact ih (ht.sound hq)
  | held => exact hq

/-! ### What a change of one channel keeps -/

/-- A change of a channel after which its requests and credits, its Write-back Queue and its DRAM image are sound if
they were before (R78, R91). -/
structure Channel.PathKept (c d : Channel) : Prop where
  credits : c.credits + c.queue.length = 32 → d.credits + d.queue.length = 32
  wbq     : c.WbqSound → d.WbqSound
  dram    : dramWf c.dram = true → dramWf d.dram = true

namespace Channel.PathKept
variable {c d e : Channel}

theorem trans (h : c.PathKept d) (k : d.PathKept e) : c.PathKept e :=
  ⟨fun x => k.credits (h.credits x), fun x => k.wbq (h.wbq x), fun x => k.dram (h.dram x)⟩

/-- A change of the Write-back Queue alone. -/
theorem of_wbq (hc : d.credits = c.credits) (hq : d.queue = c.queue) (hd : d.dram = c.dram)
    (hw : c.WbqSound → d.WbqSound) : c.PathKept d :=
  ⟨fun h => by rw [hc, hq]; exact h, hw, fun h => by rw [hd]; exact h⟩

/-- A change of none of the three. -/
theorem of_eq (hc : d.credits = c.credits) (hq : d.queue = c.queue) (hd : d.dram = c.dram) (hw : d.wbq = c.wbq) :
    c.PathKept d := .of_wbq hc hq hd fun h => Channel.wbqSound_iff.mpr (hw ▸ h)

theorem refl (c : Channel) : c.PathKept c := .of_eq rfl rfl rfl rfl

end Channel.PathKept

section
variable {c d : Channel}

theorem Channel.PathKept.setStage (h : c.PathKept d) (n : Nat) (x : Stage) : c.PathKept (d.setStage n x) :=
  h.trans ⟨fun k => by unfold Channel.setStage; rw [List.length_map]; exact k, id, id⟩

theorem Channel.PathKept.writeLine (h : c.PathKept d) (l : Loc) (p : Vector CwWrite 8) : c.PathKept (d.writeLine l p) :=
  h.trans ⟨id, id, fun k => Channel.dramWf_writeLine k l p⟩

theorem Channel.PathKept.reoffer (h : c.PathKept d) : c.PathKept d.reoffer :=
  h.trans (.of_wbq rfl rfl rfl (patrolOffers d.patrol.held d.wbq).sound)

theorem Channel.PathKept.modPatrol (h : c.PathKept d) (f : PatrolEngine → PatrolEngine) : c.PathKept (d.modPatrol f) :=
  h.trans (.of_eq rfl rfl rfl rfl)

theorem Channel.PathKept.offerPatrol (h : c.PathKept d) (es : List WbEntry) : c.PathKept (d.offerPatrol es) :=
  (h.modPatrol fun p => { p with held := p.held ++ es }).reoffer

theorem Channel.PathKept.issueRead (h : c.PathKept d) (ch : ChanId) (k : FlightKind) (n : Nat) (l : Loc) :
    c.PathKept (d.issueRead ch k n l) := h.trans (.of_eq rfl rfl rfl rfl)

theorem Channel.PathKept.countDemand (h : c.PathKept d) : c.PathKept d.countDemand := h.trans (.of_eq rfl rfl rfl rfl)

theorem Channel.PathKept.issuePatrol (h : c.PathKept d) (ch : ChanId) (k : PatrolKind) (n : Nat) (l : Loc) :
    c.PathKept (d.issuePatrol ch k n l) := by
  have hspent : c.PathKept d.clearDemand.spend := h.trans (.of_eq rfl rfl rfl rfl)
  exact (hspent.issueRead ch .patrol n l).modPatrol _

theorem Channel.PathKept.setWbq (h : c.PathKept d) {q : List WbEntry} (hq : q.Sublist d.wbq) :
    c.PathKept (d.setWbq q) :=
  h.trans (.of_wbq rfl rfl rfl fun k => WbqList.sublist k hq)

theorem Channel.PathKept.emptyWbq (h : c.PathKept d) : c.PathKept d.emptyWbq :=
  (h.setWbq (List.nil_sublist _)).reoffer

theorem Channel.PathKept.dropWrites (h : c.PathKept d) (p : WbEntry → Bool) : c.PathKept (d.dropWrites p) := by
  have hheld : c.PathKept { d with patrol := { d.patrol with held := d.patrol.held.filter (fun e => !p e) } } :=
    h.trans (.of_eq rfl rfl rfl rfl)
  unfold Channel.dropWrites
  dsimp only
  split
  · exact (hheld.setWbq List.filter_sublist).reoffer
  · exact hheld

theorem Channel.PathKept.setSlot (h : c.PathKept d) (i : SlotId) (x : SlotState) : c.PathKept (d.setSlot i x) := by
  have hmarked : c.PathKept { d with
      slots := d.slots.set i.val x
      exhausted := false
      flights := d.flights.map (fun f => if f.loc = .slot i then { f with moved := true } else f) } :=
    h.trans (.of_eq rfl rfl rfl rfl)
  unfold Channel.setSlot
  dsimp only
  split
  · exact hmarked
  · exact hmarked.dropWrites _

theorem Channel.PathKept.offerDemands (h : c.PathKept d) (es : List WbEntry) : c.PathKept (d.offerDemands es) := by
  unfold Channel.offerDemands
  induction es generalizing d with
  | nil => exact h
  | cons e es ih =>
    exact ih (h.trans (.of_wbq rfl rfl rfl (demandOffers [e] d.wbq).sound))

theorem Channel.PathKept.owe (h : c.PathKept d) (n : Nat) (l : Loc) (k : CwSet) (o : OwedBy) :
    c.PathKept (d.owe n l k o) := by
  unfold Channel.owe
  split
  · exact h
  · exact h.trans (.of_eq rfl rfl rfl rfl)

theorem Channel.pathKept_changePhysLines (c : Channel) (n : Nat) : c.PathKept (c.changePhysLines n) := by
  have hempty : ∀ (v : Vector SlotState 512) (b : Bool) (fs : List Flight),
      c.PathKept { c with wbq := [], slots := v, exhausted := b, flights := fs } :=
    fun _ _ _ => .of_wbq rfl rfl rfl fun _ => WbqList.nil
  exact (((hempty _ _ _).dropWrites _).emptyWbq).trans (.of_eq rfl rfl rfl rfl)

theorem Channel.pathKept_softReset (c : Channel) : c.PathKept c.softReset := by
  have hengine : c.PathKept { c with patrol := c.patrol.softReset, exhausted := false } := .of_eq rfl rfl rfl rfl
  exact hengine.emptyWbq.trans (.of_eq rfl rfl rfl rfl)

theorem Channel.pathKept_popFlight (c : Channel) : c.PathKept c.popFlight := .of_eq rfl rfl rfl rfl

theorem Channel.pathKept_demandDecoded (c : Channel) (q : QEntry) (f : Flight) (wb : Bool) (reps : Vector Report 8) :
    c.PathKept (c.popFlight.demandDecoded q f wb reps) := by
  have hstage := c.pathKept_popFlight.setStage q.seq (readStage reps)
  unfold Channel.demandDecoded
  dsimp only
  split
  · exact hstage
  · exact (hstage.offerDemands _).owe _ _ _ _

theorem Channel.pathKept_patrolDecoded (c : Channel) (r : PatrolRead) (f : Flight) (b : Bool) (reps : Vector Report 8) :
    c.PathKept (c.popFlight.patrolDecoded r f b reps) := by
  unfold Channel.patrolDecoded
  exact ((c.pathKept_popFlight.modPatrol _).offerPatrol _).owe _ _ _ _

theorem Channel.pathKept_fillStep (c : Channel) : c.PathKept c.fillStep := by
  have hcount : c.PathKept c.clearDemand := .of_eq rfl rfl rfl rfl
  exact (hcount.writeLine (.line c.fillProgress) fillPlan).trans (.of_eq rfl rfl rfl rfl)

/-- The power-on reset grants every credit, empties the queues and leaves DRAM (R78, R91, R201). -/
theorem Channel.pathKept_powerOn (c : Channel) (n : Nat) : c.PathKept (Channel.powerOn c.dram n) :=
  ⟨fun _ => rfl, fun _ => WbqList.nil, id⟩

end

end Sys2Proof.Machine
end

section
/-! SUPPORT. What every shared operation of the state leaves sound on the demand path (R78, R91), with the queue of
waiting commands left alone. -/

namespace Sys2Proof.Machine

/-- A change of the state that leaves the queue of waiting commands alone and every channel's demand path sound if
it was. -/
structure State.PathKept (s t : State) : Prop where
  pending : t.pending = s.pending
  chans   : ∀ c : ChanId, (s.chan c).PathKept (t.chan c)

namespace State.PathKept
variable {s t u : State} {ch : ChanId}

theorem trans (h : s.PathKept t) (k : t.PathKept u) : s.PathKept u :=
  ⟨k.pending.trans h.pending, fun c => (h.chans c).trans (k.chans c)⟩

/-- A change outside the channels and the queue of waiting commands. -/
theorem frame (h : s.PathKept t) (hp : u.pending = t.pending) (hc : u.chans = t.chans) : s.PathKept u := by
  refine ⟨hp.trans h.pending, fun c => ?_⟩
  have huc : u.chan c = t.chan c := by unfold State.chan; rw [hc]
  exact huc ▸ h.chans c

theorem refl (s : State) : s.PathKept s := ⟨rfl, fun _ => .refl _⟩

theorem of_eq (hp : t.pending = s.pending) (hc : t.chans = s.chans) : s.PathKept t := (refl s).frame hp hc

/-- A change of one channel, the table and the causes. -/
theorem of_only (ho : s.OnlyChannel t ch) (hc : (s.chan ch).PathKept (t.chan ch)) : s.PathKept t := by
  refine ⟨ho.pending_eq, fun c => ?_⟩
  by_cases e : c = ch
  · exact e ▸ hc
  · exact ho.2 c e ▸ .refl _

theorem modChan (h : s.PathKept t) {f : Channel → Channel} (hf : (t.chan ch).PathKept (f (t.chan ch))) :
    s.PathKept (t.modChan ch f) :=
  h.trans (.of_only (State.onlyChannel_modChan t ch f) (by rwa [State.chan_modChan_same]))

theorem modAllChans (h : s.PathKept t) {f : Channel → Channel} (hf : ∀ c : Channel, c.PathKept (f c)) :
    s.PathKept (t.modAllChans f) :=
  h.trans ⟨rfl, fun c => by rw [State.chan_modAllChans]; exact hf _⟩

theorem raise (h : s.PathKept t) (k : Cause) : s.PathKept (t.raise k) := h.frame rfl rfl

theorem foldl {α : Type} {f : State → α → State} (hf : ∀ (x : State) (a : α), x.PathKept (f x a)) (l : List α)
    (h : s.PathKept t) : s.PathKept (l.foldl f t) := by
  induction l generalizing t with
  | nil => exact h
  | cons a l ih => exact ih (h.trans (hf t a))

end State.PathKept

section
variable (s : State) (ch : ChanId)

/-! ### Selections, deliveries and captures -/

theorem State.pathKept_select : s.PathKept (s.select ch) := by
  obtain ⟨ho, -, hc, -⟩ := State.select_spec s ch
  exact .of_only ho (hc ▸ .of_eq rfl rfl rfl rfl)

theorem State.pathKept_selectAll (l : List ChanId) : s.PathKept (s.selectAll l) :=
  State.PathKept.foldl State.pathKept_select l (.refl s)

theorem State.pathKept_deliver (n : Nat) (src : ReadSource) (reps : Vector Report 8) :
    s.PathKept (s.deliver ch n src reps) := by
  obtain ⟨ho, -, hc, -⟩ := State.deliver_spec s ch n src reps
  exact .of_only ho (hc ▸ .of_eq rfl rfl rfl rfl)

theorem State.pathKept_captureRead (src : ReadSource) (n : Nat) (loc : Loc) (tag : Option Byte)
    (reps : Vector Report 8) : s.PathKept (s.captureRead ch src n loc tag reps) := by
  obtain ⟨ho, -, -, hc⟩ := State.captureRead_spec s ch src n loc tag reps
  exact .of_only ho (hc ▸ .of_eq rfl rfl rfl rfl)

/-! ### The ends of a migration -/

theorem State.pathKept_dropMigration (m : Migration) (b : Bool) : s.PathKept (s.dropMigration ch m b) :=
  .of_only (s.dropMigration_onlyChannel ch m b) (by rw [State.chan_dropMigration]; exact .of_eq rfl rfl rfl rfl)

theorem State.pathKept_setSlot (i : SlotId) (x : SlotState) : s.PathKept (s.modChan ch (fun c => c.setSlot i x)) :=
  (State.PathKept.refl s).modChan ((Channel.PathKept.refl _).setSlot i x)

theorem State.pathKept_cancelMigration (b : Bool) : s.PathKept (s.cancelMigration ch b) := by
  unfold State.cancelMigration
  split
  · exact .refl s
  · next m _ => exact (s.pathKept_dropMigration ch m b).trans (State.pathKept_setSlot _ ch m.target .free)

theorem State.pathKept_failMigration (m : Migration) : s.PathKept (s.failMigration ch m) :=
  ((s.pathKept_dropMigration ch m true).raise .migrationFailed).trans (State.pathKept_select _ ch)

theorem State.pathKept_retryMigration (m : Migration) : s.PathKept (s.retryMigration ch m) := by
  unfold State.retryMigration
  split
  · next i _ =>
    have hrec : s.PathKept (s.modRec ch m.line (fun r => { r with targetSlot := some i })) := .of_eq rfl rfl
    exact hrec.modChan (((Channel.PathKept.refl _).setSlot i .allocated).trans (.of_eq rfl rfl rfl rfl))
  · obtain ⟨ho, -, -, hc⟩ := State.refuseSlots_spec s ch
    exact (State.PathKept.of_only ho (hc ▸ .of_eq rfl rfl rfl rfl)).trans (State.pathKept_failMigration _ ch m)

theorem State.pathKept_failVerify (m : Migration) : s.PathKept (s.failVerify ch m) := by
  unfold State.failVerify
  dsimp only
  split
  · exact (s.pathKept_setSlot ch _ _).trans (State.pathKept_retryMigration _ ch m)
  · exact (s.pathKept_setSlot ch _ _).trans (State.pathKept_failMigration _ ch m)

theorem State.pathKept_committed (m : Migration) : s.PathKept (s.committed ch m) := by
  have hrec : s.PathKept (s.modRec ch m.line Record.commit) := .of_eq rfl rfl
  have hidle : s.PathKept ((s.modRec ch m.line Record.commit).modChan ch (fun c => { c with migration := none })) :=
    hrec.modChan (.of_eq rfl rfl rfl rfl)
  unfold State.committed
  dsimp only
  split
  · exact hidle.trans (State.pathKept_setSlot _ ch _ _)
  · exact hidle

theorem State.pathKept_commitMigration (m : Migration) : s.PathKept (s.commitMigration ch m) := by
  rw [State.commitMigration_eq]
  exact ((s.pathKept_committed ch m).raise .migrationDone).trans (State.pathKept_select _ ch)

/-! ### The decodes -/

theorem State.pathKept_demandDecode (q : QEntry) (f : Flight) (reps : Vector Report 8) :
    s.PathKept (s.demandDecode ch q f reps) := by
  have hcap := s.pathKept_captureRead ch .demandRead q.req.line f.loc (some q.req.tag) reps
  unfold State.demandDecode
  dsimp only
  refine State.PathKept.trans (State.PathKept.modChan ?_ (Channel.pathKept_demandDecoded _ q f _ reps))
    (State.pathKept_deliver _ ch _ _ _)
  split
  · exact hcap.raise .poisonRead
  · exact hcap

theorem State.pathKept_mergeDecode (q : QEntry) (p : Probe) (data : LineData) (mask : BitVec 64) (f : Flight)
    (reps : Vector Report 8) : s.PathKept (s.mergeDecode ch q p data mask f reps) := by
  rw [State.mergeDecode_eq]
  exact ((s.pathKept_captureRead ch .demandMerge _ _ _ reps).modChan
    ((Channel.pathKept_popFlight _).setStage _ _)).trans (State.pathKept_deliver _ ch _ _ _)

theorem State.pathKept_patrolDecode (r : PatrolRead) (f : Flight) (reps : Vector Report 8) :
    s.PathKept (s.patrolDecode ch r f reps) :=
  ((s.pathKept_captureRead ch _ _ _ _ reps).modChan (Channel.pathKept_patrolDecoded _ r f _ reps)).trans
    (State.pathKept_deliver _ ch _ _ _)

theorem State.pathKept_migrationReports (f : Flight) (reps : Vector Report 8) :
    s.PathKept (s.migrationReports ch f reps) :=
  ((s.pathKept_captureRead ch _ _ _ _ reps).modChan (Channel.pathKept_popFlight _)).trans
    (State.pathKept_deliver _ ch _ _ _)

theorem State.pathKept_copyDecode (m : Migration) (f : Flight) (reps : Vector Report 8) :
    s.PathKept (s.copyDecode ch m f reps) := by
  unfold State.copyDecode
  refine (s.pathKept_migrationReports ch f reps).modChan ?_
  dsimp only
  split
  · exact .of_eq rfl rfl rfl rfl
  · exact ((Channel.PathKept.refl _).owe _ _ _ _).trans (.of_eq rfl rfl rfl rfl)

theorem State.pathKept_verifyDecode (m : Migration) (f : Flight) (reps : Vector Report 8) :
    s.PathKept (s.verifyDecode ch m f reps) := by
  unfold State.verifyDecode
  split
  · exact (s.pathKept_migrationReports ch f reps).trans (State.pathKept_commitMigration _ ch m)
  · exact (s.pathKept_migrationReports ch f reps).trans (State.pathKept_failVerify _ ch m)

/-! ### Writes -/

theorem State.pathKept_writeAt (plan : Vector CwWrite 8) (full : CwSet) (loc : Loc) :
    s.PathKept (s.writeAt ch plan full loc) := by
  have hline : (s.chan ch).PathKept
      ((((s.chan ch).writeLine loc plan).dropOwed loc (writtenSet plan)).markSuperseded loc (writtenSet plan)) :=
    ((Channel.PathKept.refl _).writeLine loc plan).trans (.of_eq rfl rfl rfl rfl)
  exact State.PathKept.frame ((State.PathKept.refl s).modChan (f := fun c =>
    ((c.writeLine loc plan).dropOwed loc (writtenSet plan)).markSuperseded loc (writtenSet plan)) hline) rfl rfl

theorem State.pathKept_dropWrites (p : WbEntry → Bool) : s.PathKept (s.modChan ch (fun c => c.dropWrites p)) :=
  (State.PathKept.refl s).modChan ((Channel.PathKept.refl _).dropWrites p)

theorem State.pathKept_handOver (n : Nat) (plan : Vector CwWrite 8) :
    s.PathKept (s.modChan ch (fun c => c.handOver n plan)) := (State.PathKept.refl s).modChan (.of_eq rfl rfl rfl rfl)

theorem State.pathKept_issueWrite (n : Nat) (p : Probe) (plan : Vector CwWrite 8) (full : CwSet) :
    s.PathKept (s.issueWrite ch n p plan full) := by
  have hwritten := (s.pathKept_dropWrites ch
      (WbEntry.reached (locations p.loc (s.secondAt ch n p)) (writtenSet plan))).foldl
    (fun x l => x.pathKept_writeAt ch plan full l) (locations p.loc (s.secondAt ch n p))
  unfold State.issueWrite
  dsimp only
  split
  · exact hwritten.trans (State.pathKept_handOver _ ch _ _)
  · exact hwritten

theorem State.pathKept_poisonAt (cws : CwSet) (loc : Loc) : s.PathKept (s.poisonAt ch cws loc) :=
  ((State.PathKept.refl s).modChan (ch := ch) (f := fun c => c.writeLine loc (poisonPlan cws))
    ((Channel.PathKept.refl _).writeLine loc _)).frame rfl rfl

theorem State.pathKept_issuePoison (o : Owed) : s.PathKept (s.issuePoison ch o) := by
  have hfirst : (s.chan ch).PathKept { (s.chan ch).clearDemand with owed := (s.chan ch).owed.tail } :=
    .of_eq rfl rfl rfl rfl
  have hwritten := ((State.PathKept.refl s).modChan (f := fun c =>
      Channel.dropWrites { c.clearDemand with owed := c.owed.tail }
        (WbEntry.reached (locations o.loc (s.poisonSecond ch o)) o.cws)) (hfirst.dropWrites _)).foldl
    (fun x l => x.pathKept_poisonAt ch o.cws l) (locations o.loc (s.poisonSecond ch o))
  unfold State.issuePoison
  dsimp only
  split
  · exact hwritten.trans (State.pathKept_handOver _ ch _ _)
  · exact hwritten

theorem State.pathKept_issueWriteBack (e : WbEntry) : s.PathKept (s.issueWriteBack ch e) := by
  have hcount : (s.chan ch).PathKept (s.chan ch).clearDemand := .of_eq rfl rfl rfl rfl
  exact ((State.PathKept.refl s).modChan (ch := ch) (f := fun c =>
      Channel.reoffer (((c.clearDemand).writeLine e.loc (writeBackPlan e)).setWbq (c.wbq.erase e)))
    ((hcount.writeLine _ _).setWbq List.erase_sublist).reoffer).frame rfl rfl

/-! ### Pass ends, the walk and the cadence -/

theorem State.pathKept_modPatrol (f : PatrolEngine → PatrolEngine) :
    s.PathKept (s.modChan ch (fun c => c.modPatrol f)) :=
  (State.PathKept.refl s).modChan ((Channel.PathKept.refl _).modPatrol f)

theorem State.pathKept_endPass : s.PathKept (s.endPass ch) :=
  .of_only (s.endPass_onlyChannel ch) (by rw [State.endPass_chan]; exact .of_eq rfl rfl rfl rfl)

theorem State.pathKept_comeTo (n : Nat) : s.PathKept (s.comeTo ch n) :=
  .of_only (s.comeTo_onlyChannel ch n) (by rw [State.comeTo_chan]; exact .of_eq rfl rfl rfl rfl)

theorem State.pathKept_haltFinish : s.PathKept (s.haltFinish ch) := by
  unfold State.haltFinish
  split
  · exact s.pathKept_modPatrol ch _
  · exact s.pathKept_endPass ch

theorem State.pathKept_slotStart (slot : Nat) : s.PathKept (s.slotStart slot) := by
  obtain ⟨hframe, hchan, -⟩ := s.slotStart_spec slot
  refine ⟨?_, fun c => hchan c ▸ .of_eq rfl rfl rfl rfl⟩
  have hp := congrArg State.pending hframe
  exact hp

theorem State.pathKept_closeSlot : s.PathKept s.closeSlot :=
  (State.PathKept.of_eq (s := s) (t := { s with cadence := { s.cadence with slotIndex := none, slotEnd := none } })
    rfl rfl).modAllChans fun _ => .of_eq rfl rfl rfl rfl

/-- A frame that starts once items outside the channels have been set. -/
theorem State.PathKept.frameStart {s t : State} (h : s.PathKept t) : s.PathKept t.frameStart := by
  unfold State.frameStart
  refine State.PathKept.trans ?_ (State.pathKept_slotStart _ 0)
  exact h.frame rfl rfl

theorem State.pathKept_endSlot (slot : Nat) : s.PathKept (s.endSlot slot) := by
  unfold State.endSlot
  split
  · exact s.pathKept_slotStart _
  · split
    · exact (State.PathKept.refl s).frameStart
    · exact s.pathKept_closeSlot

theorem State.pathKept_expire : s.PathKept s.expire :=
  ((State.PathKept.of_eq rfl rfl : s.PathKept { s with
    cadence := { s.cadence with activeSource := .internal, watchdogRef := none } }).frameStart).raise .cadenceLost

theorem State.pathKept_beatFrame : s.PathKept s.beatFrame :=
  (State.PathKept.of_eq rfl rfl : s.PathKept { s with
    cadence := { s.cadence with activeSource := .external, watchdogRef := some s.now } }).frameStart

theorem State.pathKept_tick : s.PathKept s.tick := by
  unfold State.tick
  split
  · exact .of_eq rfl rfl
  · split
    · exact s.pathKept_expire
    · split
      · unfold State.endOpenSlot
        split
        · exact s.pathKept_endSlot _
        · exact s.pathKept_closeSlot
      · exact .of_eq rfl rfl

/-! ### Resets -/

theorem State.pathKept_powerOnAgain : s.PathKept s.powerOnAgain := by
  refine ⟨rfl, fun c => ?_⟩
  have hc : s.powerOnAgain.chan c = Channel.powerOn (s.chan c).dram 8 := by
    rw [State.powerOnAgain, State.powerOn_chan]
    show Channel.powerOn (s.chans.map (fun d => d.dram))[c.val] 8 = _
    rw [Vector.getElem_map]
    rfl
  exact hc ▸ (s.chan c).pathKept_powerOn 8

theorem State.pathKept_heldInReset : s.PathKept s.heldInReset :=
  (s.pathKept_powerOnAgain.trans (State.pathKept_closeSlot _)).frame rfl rfl

theorem State.PathKept.restartCadence {s t : State} (h : s.PathKept t) : s.PathKept t.restartCadence := by
  unfold State.restartCadence
  exact State.PathKept.frameStart (h.frame rfl rfl)

theorem State.pathKept_softReset : s.PathKept s.softReset := by
  have hdropped : s.PathKept (s.modAllChans (fun c => { c with wbq := [] })) :=
    (State.PathKept.refl s).modAllChans fun _ => .of_wbq rfl rfl rfl fun _ => WbqList.nil
  have habandoned : s.PathKept s.abandonAll :=
    hdropped.foldl (fun x c => x.pathKept_cancelMigration c false) _
  have hcleared : s.PathKept (s.abandonAll.modAllChans Channel.softReset) :=
    habandoned.modAllChans Channel.pathKept_softReset
  unfold State.softReset
  exact (hcleared.restartCadence).frame rfl rfl

end

end Sys2Proof.Machine
end

section
/-! SUPPORT. Every command, once: it is never refused, faults only where it issues an operation to DRAM, and keeps
the demand path and the queue of waiting commands. -/

namespace Sys2Proof.Machine

/-! ### Outcomes -/

/-- An outcome that is no refusal, is a fault only where one may come, and leads to a state of a kind. -/
def Yields (R : State → Prop) (mayFault : Prop) : Host.Outcome State Fault Refusal → Prop
  | .next t    => R t
  | .fault _   => mayFault
  | .refused _ => False

/-- The commands that issue an operation to DRAM. -/
def IssuesToDram : Instr → Prop
  | .demandReadIssue _ | .demandWriteIssue _ | .mergeReadIssue _ | .mergeWriteIssue _ | .poisonWriteIssue _
  | .writeBackIssue _ | .fillWriteIssue _ | .copyReadIssue _ | .copyWriteIssue _ | .verifyReadIssue _
  | .patrolIssueStep _ => True
  | _ => False

theorem State.yields_atLines {s u : State} {R : State → Prop} (ch : ChanId) (locs : List Loc) (h : R u) :
    Yields R True (s.atLines ch locs u) := by
  unfold State.atLines
  split
  · exact h
  · trivial

section
variable {s : State}

theorem State.yields_transact {f : State → State} (hf : s.PathKept (f s)) : Yields s.PathKept False (s.transact f) := by
  unfold State.transact
  split
  · exact .of_eq rfl rfl
  · split
    · exact .of_eq rfl rfl
    · exact hf

theorem State.yields_answer {e : Nat} {code : Byte} {f : State → Reply} (hf : s.PathKept (f s).state) :
    Yields s.PathKept False (s.answer e code f) := by
  refine State.yields_transact (State.PathKept.trans ?_ (State.pathKept_selectAll _ _))
  exact hf.frame rfl rfl

theorem State.pathKept_linkError (s : State) (bits : Nat) (code : Byte) (r : Result) :
    s.PathKept (s.linkError bits code r) := by
  unfold State.linkError State.linkFaultAt
  dsimp only
  split <;> exact .of_eq rfl rfl

end

/-! ### Requests and responses -/

section
variable (s : State) (ch : ChanId)

theorem yields_requestArrival (req : Request) : Yields s.PathKept False (execRequestArrival ch req s) := by
  unfold execRequestArrival
  split
  · exact .refl s
  split
  · exact (State.PathKept.refl s).raise .protocol
  next hc =>
  refine (State.PathKept.refl s).modChan ⟨fun h => ?_, id, id⟩
  rw [List.length_append, List.length_singleton]
  dsimp only
  omega

theorem yields_responseDeparture : Yields s.PathKept False (execResponseDeparture ch s) := by
  unfold execResponseDeparture
  split
  · exact .refl s
  next q rest hq =>
  split
  · exact .refl s
  refine (State.PathKept.refl s).modChan ⟨fun h => ?_, id, id⟩
  rw [hq, List.length_cons] at h
  dsimp only
  omega

/-! ### The issues of the arbiter -/

theorem yields_demandReadIssue : Yields s.PathKept True (execDemandReadIssue ch s) := by
  unfold execDemandReadIssue
  split
  · exact s.yields_atLines ch _ ((State.PathKept.refl s).modChan
      (((Channel.PathKept.refl _).countDemand.issueRead _ _ _ _).setStage _ _))
  · exact .refl s

theorem yields_mergeReadIssue : Yields s.PathKept True (execMergeReadIssue ch s) := by
  unfold execMergeReadIssue
  split
  · exact s.yields_atLines ch _ ((State.PathKept.refl s).modChan
      (((Channel.PathKept.refl _).countDemand.issueRead _ _ _ _).setStage _ _))
  · exact .refl s

theorem yields_demandWriteIssue : Yields s.PathKept True (execDemandWriteIssue ch s) := by
  have hcount : s.PathKept (s.modChan ch (fun c => c.countDemand)) :=
    (State.PathKept.refl s).modChan (Channel.PathKept.refl _).countDemand
  unfold execDemandWriteIssue
  split
  · split
    · exact s.yields_atLines ch _ ((hcount.trans (State.pathKept_issueWrite _ ch _ _ _ _)).modChan
        ((Channel.PathKept.refl _).setStage _ _))
    · exact .refl s
  · exact .refl s

theorem yields_mergeWriteIssue : Yields s.PathKept True (execMergeWriteIssue ch s) := by
  have hcount : ∀ p : Probe, s.PathKept (s.modChan ch (fun c => c.countMergeWrite p)) :=
    fun p => (State.PathKept.refl s).modChan (.of_eq rfl rfl rfl rfl)
  unfold execMergeWriteIssue
  split
  · split
    · exact s.yields_atLines ch _ (((hcount _).trans (State.pathKept_issueWrite _ ch _ _ _ _)).modChan
        ((Channel.PathKept.refl _).setStage _ _))
    · exact .refl s
  · exact .refl s

theorem yields_poisonWriteIssue : Yields s.PathKept True (execPoisonWriteIssue ch s) := by
  unfold execPoisonWriteIssue
  split
  · exact s.yields_atLines ch _ (s.pathKept_issuePoison ch _)
  · exact .refl s

theorem yields_writeBackIssue : Yields s.PathKept True (execWriteBackIssue ch s) := by
  unfold execWriteBackIssue
  split
  · exact s.yields_atLines ch _ (s.pathKept_issueWriteBack ch _)
  · exact .refl s

theorem yields_fillWriteIssue : Yields s.PathKept True (execFillWriteIssue ch s) := by
  have hfill : s.PathKept (s.modChan ch Channel.fillStep) :=
    (State.PathKept.refl s).modChan (Channel.pathKept_fillStep _)
  unfold execFillWriteIssue
  split
  · refine s.yields_atLines ch _ ?_
    split
    · exact hfill.raise .channelReady
    · exact hfill
  · exact .refl s

theorem yields_copyReadIssue : Yields s.PathKept True (execCopyReadIssue ch s) := by
  unfold execCopyReadIssue
  split
  · exact s.yields_atLines ch _ ((State.PathKept.refl s).modChan (.of_eq rfl rfl rfl rfl))
  · exact .refl s

theorem yields_copyWriteIssue : Yields s.PathKept True (execCopyWriteIssue ch s) := by
  have hcount : ∀ c : Channel, c.PathKept c.clearDemand := fun _ => .of_eq rfl rfl rfl rfl
  unfold execCopyWriteIssue
  split
  · exact s.yields_atLines ch _ ((State.PathKept.refl s).modChan
      (((hcount _).writeLine _ _).trans (.of_eq rfl rfl rfl rfl)))
  · exact .refl s

theorem yields_verifyReadIssue : Yields s.PathKept True (execVerifyReadIssue ch s) := by
  unfold execVerifyReadIssue
  split
  · exact s.yields_atLines ch _ ((State.PathKept.refl s).modChan (.of_eq rfl rfl rfl rfl))
  · exact .refl s

theorem State.pathKept_issuePatrol (g : PatrolEngine → PatrolEngine) (k : PatrolKind) (n : Nat) (l : Loc) :
    s.PathKept (s.modChan ch (fun c => (c.modPatrol g).issuePatrol ch k n l)) :=
  (State.PathKept.refl s).modChan (((Channel.PathKept.refl _).modPatrol g).issuePatrol ch k n l)

theorem yields_ordinaryStep : Yields s.PathKept True (s.ordinaryStep ch) := by
  unfold State.ordinaryStep
  split
  · exact s.yields_atLines ch _ (s.pathKept_issuePatrol ch _ _ _ _)
  · exact s.pathKept_endPass ch

/-- What an outcome yields from a state that has been reached on the way. -/
theorem Yields.after {s u : State} {p : Prop} {o : Host.Outcome State Fault Refusal} (h : s.PathKept u)
    (ho : Yields u.PathKept p o) : Yields s.PathKept p o := by
  cases o with
  | next t => exact h.trans ho
  | fault _ => exact ho
  | refused _ => exact ho

theorem yields_patrolIssueStep : Yields s.PathKept True (execPatrolIssueStep ch s) := by
  unfold execPatrolIssueStep
  split
  · split
    · split
      · exact s.yields_atLines ch _ (s.pathKept_issuePatrol ch _ _ _ _)
      · exact .after (s.pathKept_modPatrol ch _) (yields_ordinaryStep _ ch)
    · exact yields_ordinaryStep s ch
  · exact .refl s

/-! ### Decodes and the finish of a read -/

theorem yields_demandReadDecode (u : LineWords) : Yields s.PathKept False (execDemandReadDecode ch u s) := by
  unfold execDemandReadDecode
  split
  · split
    · split
      · exact s.pathKept_demandDecode ch _ _ _
      · exact .refl s
    · exact .refl s
  · exact .refl s

theorem yields_mergeReadDecode (u : LineWords) : Yields s.PathKept False (execMergeReadDecode ch u s) := by
  unfold execMergeReadDecode
  split
  · split
    · split
      · split
        · exact s.pathKept_mergeDecode ch _ _ _ _ _ _
        · exact .refl s
      · exact .refl s
    · exact .refl s
  · exact .refl s

theorem yields_copyReadDecode (u : LineWords) : Yields s.PathKept False (execCopyReadDecode ch u s) := by
  unfold execCopyReadDecode
  split
  · split
    · exact s.pathKept_copyDecode ch _ _ _
    · exact s.pathKept_migrationReports ch _ _
    · exact .refl s
  · exact .refl s

theorem yields_verifyReadDecode (u : LineWords) : Yields s.PathKept False (execVerifyReadDecode ch u s) := by
  unfold execVerifyReadDecode
  split
  · split
    · exact s.pathKept_verifyDecode ch _ _ _
    · exact s.pathKept_migrationReports ch _ _
    · exact .refl s
  · exact .refl s

theorem yields_patrolReadDecode (u : LineWords) : Yields s.PathKept False (execPatrolReadDecode ch u s) := by
  unfold execPatrolReadDecode
  split
  · split
    · exact s.pathKept_patrolDecode ch _ _ _
    · exact .refl s
  · exact .refl s

theorem yields_patrolReadFinish : Yields s.PathKept False (execPatrolReadFinish ch s) := by
  have hdone : s.PathKept (s.modChan ch (fun c => c.modPatrol (fun p => { p with current := none }))) :=
    s.pathKept_modPatrol ch _
  unfold execPatrolReadFinish
  split
  · exact .refl s
  split
  case isFalse => exact .refl s
  dsimp only
  split
  · exact hdone.trans (State.pathKept_comeTo _ ch _)
  · exact hdone
  · split
    · exact hdone.trans (State.pathKept_modPatrol _ ch _)
    · exact hdone.trans (State.pathKept_haltFinish _ ch)
  · exact hdone.trans (State.pathKept_modPatrol _ ch _)

/-! ### The cadence and the reset -/

theorem State.pathKept_passTo (n : Nat) : s.PathKept (s.passTo n) := .of_eq rfl rfl

theorem yields_slotEnd : Yields s.PathKept False (execSlotEnd s) := by
  unfold execSlotEnd
  split
  · split
    · exact .refl s
    · exact (s.pathKept_passTo _).trans (State.pathKept_endSlot _ _)
  · exact .refl s

theorem yields_watchdogExpiry : Yields s.PathKept False (execWatchdogExpiry s) := by
  unfold execWatchdogExpiry
  split
  · split
    · exact .refl s
    · exact (s.pathKept_passTo _).trans (State.pathKept_expire _)
  · exact .refl s

theorem yields_beat : Yields s.PathKept False (execBeat s) := by
  unfold execBeat
  split
  · exact .refl s
  split
  · exact s.pathKept_beatFrame
  · exact s.pathKept_beatFrame
  · exact .refl s

theorem yields_resetEnd (b : Bool) : Yields s.PathKept False (execResetEnd b s) := by
  unfold execResetEnd
  split
  · exact s.pathKept_powerOnAgain.frame rfl rfl
  · exact .refl s

/-! ### The link's replies -/

theorem withRecord_pathKept {b : Byte} {line : BitVec 32} {f : ChanId → Record → Reply}
    (hf : ∀ (c : ChanId) (r : Record), s.PathKept (f c r).state) : s.PathKept (withRecord s b line f).state := by
  unfold withRecord
  split
  · exact .refl s
  · split
    · exact .refl s
    · exact hf _ _

theorem onChannel_pathKept {b : Byte} {f : ChanId → Reply} (hf : ∀ c : ChanId, s.PathKept (f c).state) :
    s.PathKept (onChannel s b f).state := by
  unfold onChannel
  split
  · exact .refl s
  · exact hf _

theorem onSlot_pathKept {b : Byte} {slot : BitVec 16} {f : ChanId → SlotId → Reply}
    (hf : ∀ (c : ChanId) (i : SlotId), s.PathKept (f c i).state) : s.PathKept (onSlot s b slot f).state := by
  unfold onSlot
  split
  · exact hf _ _
  · exact .refl s

theorem statusReply_pathKept (page : Byte) : s.PathKept (statusReply page s).state := by
  unfold statusReply
  split
  · exact .refl s
  · split <;> exact .refl s

theorem getSettingReply_pathKept (id : Byte) : s.PathKept (getSettingReply id s).state := by
  unfold getSettingReply
  split <;> exact .refl s

theorem setPhysLinesReply_pathKept (v : BitVec 32) : s.PathKept (setPhysLinesReply ch v s).state := by
  unfold setPhysLinesReply
  dsimp only
  split
  · exact .refl s
  split
  · exact .refl s
  · exact (State.PathKept.refl s).modChan (ch := ch) (f := fun c => c.changePhysLines _)
      ((s.chan ch).pathKept_changePhysLines _)

theorem State.pathKept_modSettings (f : Settings → Settings) : s.PathKept (s.modSettings f) := .of_eq rfl rfl

theorem storeNumber_pathKept (id : Byte) (lo hi : Nat) (set : Settings → Nat → Settings) (v : BitVec 32) :
    s.PathKept (storeNumber id lo hi set v s).state := .of_eq rfl rfl

theorem setAlertMaskReply_pathKept (v : BitVec 32) : s.PathKept (setAlertMaskReply v s).state := .of_eq rfl rfl

theorem setCadenceSourceReply_pathKept (v : BitVec 32) : s.PathKept (setCadenceSourceReply v s).state := by
  unfold setCadenceSourceReply
  split
  · exact .refl s
  show s.PathKept (s.changeSource _)
  unfold State.changeSource
  dsimp only
  split
  · exact .of_eq rfl rfl
  · split
    · exact .of_eq rfl rfl
    · split
      · exact State.PathKept.frameStart (.of_eq rfl rfl)
      · exact .of_eq rfl rfl
  · exact .refl s

theorem setCadenceTimeoutReply_pathKept (v : BitVec 32) : s.PathKept (setCadenceTimeoutReply v s).state := by
  show s.PathKept (s.changeTimeout _)
  unfold State.changeTimeout
  dsimp only
  split
  · split
    · exact (s.pathKept_modSettings _).trans (State.pathKept_expire _)
    · exact s.pathKept_modSettings _
  · exact s.pathKept_modSettings _

theorem setFocusIntervalReply_pathKept (v : BitVec 32) : s.PathKept (setFocusIntervalReply v s).state := by
  show s.PathKept (s.changeFocus _)
  unfold State.changeFocus
  dsimp only
  split
  · exact (s.pathKept_modSettings _).modAllChans fun _ => .of_eq rfl rfl rfl rfl
  · exact s.pathKept_modSettings _

theorem setSettingReply_pathKept (id : Byte) (v : BitVec 32) : s.PathKept (setSettingReply id v s).state := by
  unfold setSettingReply
  cases settingOf id with
  | none => exact .refl s
  | some k =>
    cases k with
    | physLines ch => exact setPhysLinesReply_pathKept s ch v
    | focusInterval => exact setFocusIntervalReply_pathKept s v
    | cadenceSource => exact setCadenceSourceReply_pathKept s v
    | cadenceTimeout => exact setCadenceTimeoutReply_pathKept s v
    | alertMask => exact setAlertMaskReply_pathKept s v
    | _ => exact storeNumber_pathKept s _ _ _ _ v

theorem adoptReply_pathKept (b : Byte) (line : BitVec 32) (st : Byte) (slot : BitVec 16) :
    s.PathKept (adoptReply b line st slot s).state := by
  have hadopt : ∀ (k : Key) (a : AdoptAs), s.PathKept (s.adopt k a) := by
    intro k a
    have hrec : s.PathKept { s with table := insertRec s.table (Machine.adopted k a) } := .of_eq rfl rfl
    cases a with
    | spared i => exact hrec.trans (State.pathKept_setSlot _ k.channel i .allocated)
    | watch => exact hrec
    | retired => exact hrec
  unfold adoptReply
  split
  · split
    · exact .refl s
    split
    · exact .refl s
    split
    · exact .refl s
    split
    · exact .refl s
    · exact hadopt _ _
  · exact .refl s

theorem changeUnlessRetired_pathKept (b : Byte) (line : BitVec 32) (f : Record → Record)
    (selects : ChanId → Record → List ChanId) : s.PathKept (changeUnlessRetired b line f selects s).state := by
  refine withRecord_pathKept s fun c r => ?_
  split
  · exact .refl s
  · exact .of_eq rfl rfl

theorem retireReply_pathKept (b : Byte) (line : BitVec 32) : s.PathKept (retireReply b line s).state := by
  refine withRecord_pathKept s fun c r => ?_
  split
  · exact .refl s
  have hcancel : s.PathKept (s.retireCancel c r) := by
    unfold State.retireCancel
    split
    · exact s.pathKept_cancelMigration c true
    · exact .refl s
  have hslot : s.PathKept ((s.retireCancel c r).retireSlot c line.toNat) := by
    unfold State.retireSlot
    split
    · exact hcancel.trans (State.pathKept_setSlot _ c _ .free)
    · exact hcancel
  exact hslot.frame rfl rfl

theorem releaseReply_pathKept (b : Byte) (line : BitVec 32) : s.PathKept (releaseReply b line s).state := by
  refine withRecord_pathKept s fun c r => ?_
  split
  · exact .of_eq rfl rfl
  · exact .refl s

theorem spareReply_pathKept (b : Byte) (line : BitVec 32) : s.PathKept (spareReply b line s).state := by
  refine withRecord_pathKept s fun c r => ?_
  split
  · exact .refl s
  split
  · exact .refl s
  split
  · exact .refl s
  next i _ =>
  obtain ⟨ho, -, -, hc⟩ := State.startMigration_spec s r i true
  exact .of_only ho (hc ▸ .of_eq rfl rfl rfl rfl)

theorem cancelReply_pathKept (b : Byte) (line : BitVec 32) : s.PathKept (cancelReply b line s).state := by
  refine withRecord_pathKept s fun c r => ?_
  split
  · exact s.pathKept_cancelMigration c true
  · exact .refl s

theorem spareRestoreReply_pathKept (b : Byte) (slot : BitVec 16) : s.PathKept (spareRestoreReply b slot s).state := by
  refine onSlot_pathKept s fun c i => ?_
  split
  · exact s.pathKept_setSlot c i .free
  · exact .refl s

theorem regionSetReply_pathKept (index enabled chans : Byte) (first last : BitVec 32) (cls : Byte) :
    s.PathKept (regionSetReply index enabled chans first last cls s).state := by
  unfold regionSetReply
  split
  · unfold regionStore
    split
    · exact .refl s
    split
    · exact .refl s
    · exact .of_eq rfl rfl
  · exact .refl s

theorem regionGetReply_pathKept (index : Byte) : s.PathKept (regionGetReply index s).state := by
  unfold regionGetReply
  split <;> exact .refl s

theorem classSetReply_pathKept (cls : Byte) (tHot tSpare : BitVec 16) (auto wb : Byte) :
    s.PathKept (classSetReply cls tHot tSpare auto wb s).state := by
  unfold classSetReply
  split
  · exact .of_eq rfl rfl
  · exact .refl s

theorem classGetReply_pathKept (cls : Byte) : s.PathKept (classGetReply cls s).state := by
  unfold classGetReply
  split <;> exact .refl s

theorem channelFillReply_pathKept (b : Byte) : s.PathKept (channelFillReply b s).state := by
  refine onChannel_pathKept s fun c => ?_
  split
  · exact .refl s
  split
  · exact .refl s
  have hempty : s.PathKept (s.modChan c (fun d => { d.emptyWbq with state := .initializing, fillProgress := 0 })) :=
    (State.PathKept.refl s).modChan ((Channel.PathKept.refl _).emptyWbq.trans (.of_eq rfl rfl rfl rfl))
  exact hempty.frame rfl rfl

theorem State.pathKept_setChannel (x : ChannelState) : s.PathKept (s.setChannel ch x) :=
  (State.PathKept.refl s).modChan (.of_eq rfl rfl rfl rfl)

theorem channelOnlineReply_pathKept (b : Byte) : s.PathKept (channelOnlineReply b s).state := by
  refine onChannel_pathKept s fun c => ?_
  split
  · exact .refl s
  split
  · exact .refl s
  · exact s.pathKept_setChannel c .online

theorem channelOfflineReply_pathKept (b : Byte) : s.PathKept (channelOfflineReply b s).state := by
  refine onChannel_pathKept s fun c => ?_
  split
  · exact .refl s
  · exact s.pathKept_setChannel c .disabled
  · split
    · exact s.pathKept_setChannel c .disabled
    · exact .refl s

theorem patrolStartReply_pathKept (b mode flag : Byte) (start : BitVec 32) :
    s.PathKept (patrolStartReply b mode flag start s).state := by
  unfold patrolStartReply
  split
  · split
    · exact .refl s
    split
    · exact .refl s
    split
    · exact .refl s
    · exact (s.pathKept_modPatrol _ _).trans (State.pathKept_comeTo _ _ _)
  · exact .refl s

theorem setPhaseReply_pathKept (b : Byte) : s.PathKept (setPhaseReply b s).state := by
  unfold setPhaseReply
  split
  · exact .of_eq rfl rfl
  · exact .refl s

theorem profileSetReply_pathKept (b : Byte) (mask : BitVec 32) (ops : Byte) :
    s.PathKept (profileSetReply b mask ops s).state := by
  unfold profileSetReply
  split
  · exact .of_eq rfl rfl
  · exact .refl s

theorem profileGetReply_pathKept (b : Byte) : s.PathKept (profileGetReply b s).state := by
  unfold profileGetReply
  split <;> exact .refl s

theorem alertAckReply_pathKept (k : BitVec 16) : s.PathKept (alertAckReply k s).state := by
  unfold alertAckReply
  split
  · exact .of_eq rfl rfl
  · exact .refl s

end

/-! ### Every command -/

/-- Every command is answered with a next state that keeps the demand path and the queue of waiting commands, but
that an issue may stop with a fault. -/
theorem exec_yields (i : Instr) (s : State) : Yields s.PathKept (IssuesToDram i) (exec i s) := by
  cases i with
  | requestArrival ch req => exact yields_requestArrival s ch req
  | responseDeparture ch => exact yields_responseDeparture s ch
  | demandReadIssue ch => exact yields_demandReadIssue s ch
  | demandWriteIssue ch => exact yields_demandWriteIssue s ch
  | mergeReadIssue ch => exact yields_mergeReadIssue s ch
  | mergeReadDecode ch u => exact yields_mergeReadDecode s ch u
  | mergeWriteIssue ch => exact yields_mergeWriteIssue s ch
  | poisonWriteIssue ch => exact yields_poisonWriteIssue s ch
  | writeBackIssue ch => exact yields_writeBackIssue s ch
  | fillWriteIssue ch => exact yields_fillWriteIssue s ch
  | copyReadIssue ch => exact yields_copyReadIssue s ch
  | copyReadDecode ch u => exact yields_copyReadDecode s ch u
  | copyWriteIssue ch => exact yields_copyWriteIssue s ch
  | verifyReadIssue ch => exact yields_verifyReadIssue s ch
  | verifyReadDecode ch u => exact yields_verifyReadDecode s ch u
  | patrolIssueStep ch => exact yields_patrolIssueStep s ch
  | patrolReadDecode ch u => exact yields_patrolReadDecode s ch u
  | patrolReadFinish ch => exact yields_patrolReadFinish s ch
  | demandReadDecode ch u => exact yields_demandReadDecode s ch u
  | slotEnd => exact yields_slotEnd s
  | beat => exact yields_beat s
  | watchdogExpiry => exact yields_watchdogExpiry s
  | resetAssert => exact s.pathKept_heldInReset
  | resetEnd b => exact yields_resetEnd s b
  | linkShort bits =>
    exact State.yields_transact (f := fun t => t.linkError bits 0x00 .short) (s.pathKept_linkError bits 0x00 .short)
  | linkCheckError e code =>
    exact State.yields_transact (f := fun t => t.linkError (192 + e) code .checkError)
      (s.pathKept_linkError (192 + e) code .checkError)
  | unknown => exact State.yields_answer (f := fun t => refuse t .unknown) (.refl s)
  | nop => exact State.yields_answer (f := fun t => reply t 0) (.refl s)
  | status e page => exact State.yields_answer (statusReply_pathKept s page)
  | getSetting e id => exact State.yields_answer (getSettingReply_pathKept s id)
  | setSetting e id v => exact State.yields_answer (setSettingReply_pathKept s id v)
  | setPhysLines e ch v => exact State.yields_answer (setPhysLinesReply_pathKept s ch v)
  | setCadenceSource e v => exact State.yields_answer (setCadenceSourceReply_pathKept s v)
  | setCadenceTimeout e v => exact State.yields_answer (setCadenceTimeoutReply_pathKept s v)
  | setFocusInterval e v => exact State.yields_answer (setFocusIntervalReply_pathKept s v)
  | setAlertMask e v => exact State.yields_answer (setAlertMaskReply_pathKept s v)
  | softReset => exact State.yields_answer (f := softResetReply) s.pathKept_softReset
  | lookup e b line => exact State.yields_answer (f := lookupReply b line) (withRecord_pathKept s fun _ _ => .refl s)
  | next e flag b line filter =>
    refine State.yields_answer (f := nextReply flag b line filter) ?_
    rw [nextReply_state]
    exact .refl s
  | adopt e b line st slot => exact State.yields_answer (adoptReply_pathKept s b line st slot)
  | pin => exact State.yields_answer (changeUnlessRetired_pathKept s _ _ _ _)
  | unpin => exact State.yields_answer (changeUnlessRetired_pathKept s _ _ _ _)
  | retire e b line => exact State.yields_answer (retireReply_pathKept s b line)
  | release e b line => exact State.yields_answer (releaseReply_pathKept s b line)
  | clearHold => exact State.yields_answer (changeUnlessRetired_pathKept s _ _ _ _)
  | spare e b line => exact State.yields_answer (spareReply_pathKept s b line)
  | cancel e b line => exact State.yields_answer (cancelReply_pathKept s b line)
  | spareQuery e b =>
    exact State.yields_answer (f := fun t => onChannel t b (fun c => reply t (spareQueryReadout (t.chan c))))
      (onChannel_pathKept s fun _ => .refl s)
  | spareSlot e b slot =>
    exact State.yields_answer (f := fun t => onSlot t b slot (fun c i =>
      reply t (spareSlotReadout ((t.chan c).slots.get i) (slotOwner t.table c i))))
      (onSlot_pathKept s fun _ _ => .refl s)
  | spareRestore e b slot => exact State.yields_answer (spareRestoreReply_pathKept s b slot)
  | regionSet => exact State.yields_answer (regionSetReply_pathKept s _ _ _ _ _ _)
  | regionGet e index => exact State.yields_answer (regionGetReply_pathKept s index)
  | classSet => exact State.yields_answer (classSetReply_pathKept s _ _ _ _ _)
  | classGet e cls => exact State.yields_answer (classGetReply_pathKept s cls)
  | channelFill e b => exact State.yields_answer (channelFillReply_pathKept s b)
  | channelOnline e b => exact State.yields_answer (channelOnlineReply_pathKept s b)
  | channelOffline e b => exact State.yields_answer (channelOfflineReply_pathKept s b)
  | patrolStart => exact State.yields_answer (patrolStartReply_pathKept s _ _ _ _)
  | patrolHalt e b =>
    exact State.yields_answer (f := fun t => onChannel t b (fun c =>
      patrolReply (t.modChan c (fun d => d.modPatrol PatrolEngine.halt)) c .ok))
      (onChannel_pathKept s fun c => s.pathKept_modPatrol c _)
  | setPhase e b => exact State.yields_answer (setPhaseReply_pathKept s b)
  | profileSet e b mask ops => exact State.yields_answer (profileSetReply_pathKept s b mask ops)
  | profileGet e b => exact State.yields_answer (profileGetReply_pathKept s b)
  | captureRead e b =>
    exact State.yields_answer (f := fun t => onChannel t b (fun c => reply t (captureReadout c (t.chan c).capture)))
      (onChannel_pathKept s fun _ => .refl s)
  | captureClear e b =>
    exact State.yields_answer (f := fun t => onChannel t b (fun c =>
      reply (t.modChan c (fun d => { d with capture := none })) (captureReadout c (t.chan c).capture)))
      (onChannel_pathKept s fun c => by
        rw [reply_state]
        exact (State.PathKept.refl s).modChan (.of_eq rfl rfl rfl rfl))
  | countsRead e b =>
    exact State.yields_answer (f := fun t => onChannel t b (fun c => reply t (countsReadout (t.chan c))))
      (onChannel_pathKept s fun _ => .refl s)
  | countsClear e b =>
    exact State.yields_answer (f := fun t => onChannel t b (fun c =>
      reply (t.modChan c (fun d => { d with ceCount := 0, ueCount := 0 })) (countsReadout (t.chan c))))
      (onChannel_pathKept s fun c => by
        rw [reply_state]
        exact (State.PathKept.refl s).modChan (.of_eq rfl rfl rfl rfl))
  | alertRead => exact State.yields_answer (f := fun t => reply t (alertReadout t)) (.refl s)
  | alertAck e k => exact State.yields_answer (alertAckReply_pathKept s k)

theorem exec_pathKept {i : Instr} {s t : State} (h : exec i s = .next t) : s.PathKept t := by
  have hy := exec_yields i s
  rw [h] at hy
  exact hy

/-- Every step keeps the demand path of every channel. -/
theorem step_pathKept {s t : State} (h : step s = .next t) (c : ChanId) : (s.chan c).PathKept (t.chan c) := by
  unfold step at h
  split at h
  · next i rest _ => exact (exec_pathKept (s := { s with pending := rest }) h).chans c
  · cases h; exact s.pathKept_tick.chans c

/-- Settles O58: every command and the passing of time keep each channel's demand path. -/
theorem stepsKeepDemandPathSound : Obligations.StepsKeepDemandPathSound :=
  ⟨fun _ _ hs h c => (step_pathKept h c).credits (hs c), fun _ _ hs h c => (step_pathKept h c).wbq (hs c),
    fun _ _ hs h c => (step_pathKept h c).dram (hs c)⟩

/-- Settles O2, from what every command yields. -/
theorem commandsCompleteAndKeepQueue : Obligations.CommandsCompleteAndKeepQueue := by
  intro i s
  have hy := exec_yields i s
  refine ⟨fun r h => ?_, fun t h => (exec_pathKept h).pending, fun f h => ?_⟩
  · rw [h] at hy
    exact hy
  · rw [h] at hy
    cases i with
    | demandReadIssue ch | demandWriteIssue ch | mergeReadIssue ch | mergeWriteIssue ch | poisonWriteIssue ch
    | writeBackIssue ch | fillWriteIssue ch | copyReadIssue ch | copyWriteIssue ch | verifyReadIssue ch
    | patrolIssueStep ch => exact ⟨ch, by simp⟩
    | _ => exact absurd hy id

end Sys2Proof.Machine
end

section
/-! SUPPORT. Requests and responses at the demand port (R78 to R80, R202), and what the Channel Arbiter of a channel
issues next (R75, R81, R84, R87, R94, R96, R97, R106). -/

namespace Sys2Proof.Machine

/-! ### Requests and responses -/

/-- Settles O38, by the three cases of a request's arrival. -/
theorem requestsJoinOrAreDropped : Obligations.RequestsJoinOrAreDropped := by
  intro s ch req
  rw [exec_requestArrival]
  unfold execRequestArrival
  refine ⟨fun hr => if_pos hr, fun hr hc => ?_, fun hr hc => ?_⟩ <;> rw [if_neg (by simp [hr])]
  · exact if_pos hc
  · exact if_neg (Nat.ne_of_gt hc)

section
variable {s : State} {ch : ChanId} {q : QEntry} {rest : List QEntry}

theorem exec_responseDeparture_waits (hq : (s.chan ch).queue = q :: rest) (hr : (s.chan ch).responseOf q = none) :
    exec (.responseDeparture ch) s = .next s := by
  rw [exec_responseDeparture]
  unfold execResponseDeparture
  simp only [hq, hr]

theorem exec_responseDeparture_leaves {r : DemandResponse} (hq : (s.chan ch).queue = q :: rest)
    (hr : (s.chan ch).responseOf q = some r) :
    exec (.responseDeparture ch) s = .next (s.modChan ch (fun c =>
      { c with queue := rest, credits := c.credits + 1, response := some r })) := by
  rw [exec_responseDeparture]
  unfold execResponseDeparture
  simp only [hq, hr]

end

section
variable {c : Channel} {q : QEntry}

/-- A request whose work is not done has no response yet (R80). -/
theorem Channel.responseOf_eq_none
    (h : (q.stage = .waiting ∧ (q.req.kind = .read ∨ ∃ d m, m ≠ 0 ∧ q.req.kind = .write d m)) ∨ q.stage = .readIssued ∨
      (∃ p, q.stage = .mergeIssued p) ∨ (∃ p plan o, q.stage = .mergeDecoded p plan o) ∨
      (∃ o d m, q.stage = .readDone o d m ∧ ∃ w ∈ c.owed, w.owner = .demand q.seq)) : c.responseOf q = none := by
  unfold Channel.responseOf
  rcases h with ⟨hs, hk | ⟨d, m, hm, hk⟩⟩ | hs | ⟨p, hs⟩ | ⟨p, plan, o, hs⟩ | ⟨o, d, m, hs, w, hw, ho⟩
  · rw [hs, hk]
  · rw [hs, hk]
    exact if_neg hm
  · rw [hs]
  · rw [hs]
  · rw [hs]
  · rw [hs]
    exact if_pos (List.any_eq_true.mpr ⟨w, hw, by simpa using ho⟩)

/-- The response of a request whose work is done (R79, R80, R82, R86). -/
theorem Channel.responseOf_eq_some {resp : DemandResponse}
    (h : (∃ reason, q.stage = .refused reason ∧ resp = .refused q.req.tag reason) ∨
      (∃ d, q.stage = .waiting ∧ q.req.kind = .write d 0 ∧ resp = .writeDone q.req.tag .done) ∨
      (∃ o, q.stage = .written o ∧ resp = .writeDone q.req.tag o) ∨
      (∃ o d m, q.stage = .readDone o d m ∧ (∀ w ∈ c.owed, w.owner ≠ .demand q.seq) ∧
        resp = .readData q.req.tag o d m)) : c.responseOf q = some resp := by
  unfold Channel.responseOf
  rcases h with ⟨reason, hs, rfl⟩ | ⟨d, hs, hk, rfl⟩ | ⟨o, hs, rfl⟩ | ⟨o, d, m, hs, ho, rfl⟩
  · rw [hs]
  · rw [hs, hk]
    rfl
  · rw [hs]
  · rw [hs]
    refine if_neg fun hany => ?_
    obtain ⟨w, hw, he⟩ := List.any_eq_true.mp hany
    exact ho w hw (by simpa using he)

end

/-- Settles O39, from what response each place of the queue has. -/
theorem responsesLeaveInOrder : Obligations.ResponsesLeaveInOrder := by
  refine ⟨fun s ch hq => ?_, fun s ch q rest hq h => ?_, fun s ch q rest resp hq h => ?_⟩
  · rw [exec_responseDeparture]
    unfold execResponseDeparture
    simp only [hq]
  · exact exec_responseDeparture_waits hq (Channel.responseOf_eq_none h)
  · exact exec_responseDeparture_leaves hq (Channel.responseOf_eq_some h)

/-! ### The arbiter -/

section
variable {s : State} {ch : ChanId}

theorem Channel.head_eq_some_iff (c : Channel) (q : QEntry) : c.head = some q ↔ ∃ before after : List QEntry,
    c.queue = before ++ q :: after ∧ ¬ q.HasLeft ∧ ∀ x ∈ before, x.HasLeft := by
  unfold Channel.head
  rw [find_eq_some_iff]
  simp only [Bool.not_eq_true', Bool.not_eq_false', ← QEntry.passed_iff, Bool.not_eq_true]

theorem Channel.head_eq_none_iff (c : Channel) : c.head = none ↔ ∀ x ∈ c.queue, x.HasLeft := by
  unfold Channel.head
  simp only [List.find?_eq_none, Bool.not_eq_true', Bool.not_eq_false, QEntry.passed_iff]

theorem Channel.wbNext_eq_some_iff (c : Channel) (w : WbEntry) : c.wbNext = some w ↔ ∃ before after : List WbEntry,
    c.wbq = before ++ w :: after ∧ (∀ f ∈ c.flights, f.loc ≠ w.loc) ∧ ∀ x ∈ before, ∃ f ∈ c.flights, f.loc = x.loc := by
  unfold Channel.wbNext
  rw [find_eq_some_iff]
  simp only [← Bool.not_eq_true, Channel.wbEligible_iff]
  push Not
  rfl

theorem Channel.wbNext_eq_none_iff (c : Channel) :
    c.wbNext = none ↔ ∀ x ∈ c.wbq, ∃ f ∈ c.flights, f.loc = x.loc := by
  unfold Channel.wbNext
  simp only [List.find?_eq_none, Channel.wbEligible_iff]
  push Not
  rfl

theorem State.demandOp_of_no_head (h : (s.chan ch).head = none) : s.demandOp ch = none := by
  unfold State.demandOp
  rw [h]

section
variable {q : QEntry} (hq : (s.chan ch).head = some q)
include hq

theorem State.demandOp_of_taken (hs : q.stage ≠ .waiting) : s.demandOp ch = none := by
  unfold State.demandOp
  rw [hq]
  cases h : q.stage with
  | waiting => exact absurd h hs
  | _ => simp only [h]

theorem State.demandOp_of_read (hs : q.stage = .waiting) (hk : q.req.kind = .read) :
    s.demandOp ch = some .demandRead := by
  unfold State.demandOp
  rw [hq]
  simp only [hs, hk]

theorem State.demandOp_of_write {data : LineData} {mask : BitVec 64} (hs : q.stage = .waiting)
    (hk : q.req.kind = .write data mask) : s.demandOp ch =
      if (s.chan ch).writeWaits (locations (s.probe ch q.req.line).loc (s.probe ch q.req.line).second) then none
      else if needsMerge mask then some .mergeRead else some .demandWrite := by
  unfold State.demandOp
  rw [hq]
  simp only [hs, hk]

end

theorem Channel.migrationOp_of_none {c : Channel} (h : c.migration = none) : c.migrationOp = none := by
  unfold Channel.migrationOp
  rw [h]

theorem Channel.migrationOp_of_some {c : Channel} {m : Migration} (h : c.migration = some m) :
    c.migrationOp = match m.phase with
      | .copyRead => if m.inFlight = false ∧ 1 ≤ c.budget then some .copyRead else none
      | .copyWrite => some .copyWrite
      | .verifyRead => if m.inFlight = false ∧ 1 ≤ c.budget then some .verifyRead else none := by
  cases c
  cases h
  rfl

theorem Channel.patrolReady_iff (c : Channel) : c.patrolReady = true ↔
    c.patrol.state = .running ∧ c.patrol.current = none ∧ c.patrol.startWait = false ∧ 1 ≤ c.budget := by
  simp [Channel.patrolReady, and_assoc]

/-- Nothing is held by a merge read while the head has not been taken (R87). -/
theorem Channel.mergeHold_of_waiting {c : Channel} (h : ∀ q, c.head = some q → q.stage = .waiting) :
    c.mergeHold = none := by
  unfold Channel.mergeHold
  cases hq : c.head with
  | none => rfl
  | some q => simp only [h q hq]

section
variable (hs : (s.chan ch).state = .online)
include hs

theorem State.nextOp_of_mergeHold {o : Option Op} (h : (s.chan ch).mergeHold = some o) : s.nextOp ch = o := by
  unfold State.nextOp
  rw [hs]
  simp only [h]

variable (h : (s.chan ch).mergeHold = none)
include h

/-- The steps of R96 on an ONLINE channel with no merge read under way: the oldest poison write owed; a write-back
where the demand step yields (R97); the head's operation; maintenance. -/
theorem State.nextOp_online : s.nextOp ch =
    if (s.chan ch).owed ≠ [] then some .poisonWrite
    else if (s.chan ch).demandYields = true then some .writeBack
    else (s.demandOp ch).or (s.chan ch).maintenanceOp := by
  unfold State.nextOp
  rw [hs]
  simp only [h, Bool.not_eq_true', List.isEmpty_eq_false_iff]
  cases s.demandOp ch <;> rfl

end

theorem Channel.demandYields_iff (c : Channel) :
    c.demandYields = true ↔ c.demandCount = 8 ∧ c.wbNext.isSome = true := by
  simp [Channel.demandYields]

/-- Steps 3 to 5 of R96, in order. -/
theorem Channel.maintenanceOp_eq (c : Channel) : c.maintenanceOp =
    if c.wbNext.isSome then some .writeBack
    else c.migrationOp.or (if c.patrolReady = true then some .patrolStep else none) := by
  unfold Channel.maintenanceOp
  cases c.migrationOp <;> rfl

end

/-- Settles O40: what each step of R96 looks at, and then the steps in order. -/
theorem arbiterOrder : Obligations.ArbiterOrder := by
  intro s ch
  refine ⟨Channel.head_eq_some_iff _, Channel.head_eq_none_iff _, State.demandOp_of_no_head,
    fun q hq => ⟨State.demandOp_of_taken hq, State.demandOp_of_read hq, fun data mask locs hs hk hl => ?write⟩,
    Channel.wbNext_eq_some_iff _, Channel.wbNext_eq_none_iff _, Channel.migrationOp_of_none,
    fun m hm => Channel.migrationOp_of_some hm, Channel.patrolReady_iff _, fun hs => ?initializing, fun hs => ?disabled,
    fun hs => ⟨fun q p hq hst => ?mergeRead, fun q p plan o hq hst => ?mergeWrite, fun hw => ?steps⟩⟩
  case write =>
    rw [State.demandOp_of_write hq hs hk, locations_eq, ← hl]
    refine ⟨fun hb => if_pos ((Channel.writeWaits_iff _ _).mpr hb), fun hb => ?_⟩
    rw [if_neg (fun h => hb ((Channel.writeWaits_iff _ _).mp h))]
    refine ⟨fun h => if_pos ((needsMerge_iff mask).mpr h), fun h => if_neg fun hm => ?_⟩
    obtain ⟨i, hi, hi'⟩ := (needsMerge_iff mask).mp hm
    exact (h i).elim hi hi'
  case initializing =>
    unfold State.nextOp
    rw [hs]
  case disabled =>
    unfold State.nextOp
    rw [hs]
  case mergeRead =>
    refine State.nextOp_of_mergeHold hs ?_
    unfold Channel.mergeHold
    rw [hq]
    simp only [hst]
  case mergeWrite =>
    refine State.nextOp_of_mergeHold hs ?_
    unfold Channel.mergeHold
    rw [hq]
    simp only [hst]
  case steps =>
    rw [State.nextOp_online hs (Channel.mergeHold_of_waiting hw)]
    refine ⟨fun ho => if_pos ho, fun ho hc hn => ?_, fun o ho hc hd => ?_, fun ho hd => ?_⟩
    · rw [if_neg (not_not.mpr ho), if_pos ((Channel.demandYields_iff _).mpr ⟨hc, hn⟩)]
    · have hy : ¬ (s.chan ch).demandYields = true := by
        rw [Channel.demandYields_iff]
        rcases hc with hc | hc
        · exact fun k => hc k.1
        · exact fun k => by simp [hc] at k
      rw [if_neg (not_not.mpr ho), if_neg hy, hd]
      rfl
    · rw [if_neg (not_not.mpr ho), hd, Option.none_or, Channel.maintenanceOp_eq]
      have hno : (s.chan ch).wbNext = none → (s.chan ch).demandYields ≠ true := by
        intro hn
        rw [Ne, Channel.demandYields_iff, hn]
        simp
      refine ⟨fun hn => ?_, fun o hn hm => ?_, fun hn hm => ?_⟩
      · rw [if_pos hn, ite_self]
      · rw [if_neg (hno hn), hn, hm]
        rfl
      · rw [if_neg (hno hn), hn, hm]
        rfl

end Sys2Proof.Machine
end

section
/-! SUPPORT. SET_SETTING of PHYS_LINES (R73, R101, R114, R115, R142). -/

namespace Sys2Proof.Machine

/-! ### The channel after a change of PHYS_LINES -/

/-- Whether a location is a DEFECTIVE slot of a channel, which a change of PHYS_LINES makes FREE (R73). -/
def Channel.atDefective (c : Channel) (l : Loc) : Bool :=
  match l with
  | .slot i => c.slots.get i == .defective
  | .line _ => false

/-- A slot's state after the DEFECTIVE slots have become FREE (R73). -/
def SlotState.restored (x : SlotState) : SlotState := if x = .defective then .free else x

section
variable (c : Channel)

/-- With no entry in the Write-back Queue, DEFECTIVE slots that become FREE drop held offers alone, and none is
offered again (R115, R142). -/
theorem Channel.freeDefective_of_no_entry (h : c.wbq = []) : c.freeDefective = { c with
    slots := c.slots.map SlotState.restored
    exhausted := c.exhausted && !c.slots.any (· == .defective)
    flights := c.flights.map (fun f => if c.atDefective f.loc then { f with moved := true } else f)
    patrol := { c.patrol with held := c.patrol.held.filter (fun e => !c.atDefective e.loc) } } := by
  unfold Channel.freeDefective Channel.dropWrites
  rw [h]
  rfl

theorem Channel.changePhysLines_eq (n : Nat) : c.changePhysLines n = { c with
    physLines := n, fillProgress := 0, demandCount := 0
    wbq := (offerHeld [] (c.patrol.held.filter (fun e => !c.atDefective e.loc))).1
    patrol := { c.patrol with
      position := 0, pass := 0, focusCursor := none, focusCount := 0
      held := (offerHeld [] (c.patrol.held.filter (fun e => !c.atDefective e.loc))).2 }
    slots := c.slots.map SlotState.restored
    exhausted := c.exhausted && !c.slots.any (· == .defective)
    flights := c.flights.map (fun f => if c.atDefective f.loc then { f with moved := true } else f) } := by
  unfold Channel.changePhysLines
  rw [Channel.freeDefective_of_no_entry _ rfl]
  rfl

theorem SlotState.get_map_restored (v : Vector SlotState 512) (i : SlotId) :
    (v.map SlotState.restored).get i = if v.get i = .defective then .free else v.get i := by
  rw [Vector.get_eq_getElem, Vector.getElem_map]
  rfl

/-- The reads in flight at a DEFECTIVE slot are those whose slot changes state (R142). -/
theorem Channel.movedBy_restored {d : Channel} (h : d.slots = c.slots.map SlotState.restored) (fs : List Flight) :
    fs.map (fun f => if c.atDefective f.loc then { f with moved := true } else f) = fs.map (c.movedBy d) := by
  apply List.map_congr_left
  rintro ⟨kind, line, loc, words, moved⟩ _
  unfold Channel.movedBy Channel.atDefective
  cases loc with
  | line n => simp
  | slot i =>
    dsimp only
    rw [h, SlotState.get_map_restored]
    by_cases hi : c.slots.get i = .defective <;> simp [hi]

theorem any_defective_eq (v : Vector SlotState 512) : v.any (· == .defective) = v.toList.contains .defective := by
  rw [← Vector.any_toList, List.contains_eq_any_beq]
  congr 1
  funext x
  exact Bool.beq_comm

/-- The held offers that a change of PHYS_LINES leaves are those not at a DEFECTIVE slot (R115). -/
theorem Channel.filter_atDefective (l : List WbEntry) : l.filter (fun e => !c.atDefective e.loc) =
    l.filter (fun w => match w.loc with
      | .slot i => decide (c.slots.get i ≠ .defective)
      | .line _ => true) := by
  congr 1
  funext w
  unfold Channel.atDefective
  cases w.loc with
  | line n => rfl
  | slot i => by_cases h : c.slots.get i = .defective <;> simp [h]

/-- Everything that a change of PHYS_LINES does to its channel (R73, R101, R114, R115, R142). -/
theorem Channel.changePhysLines_spec (n : Nat) (d : Channel) (hd : d = c.changePhysLines n) :
    (∀ i : SlotId, d.slots.get i = if c.slots.get i = .defective then .free else c.slots.get i) ∧
      d.exhausted = (c.exhausted && !c.slots.toList.contains .defective) ∧
      PatrolOffers [] (c.patrol.held.filter (fun w => match w.loc with
        | .slot i => decide (c.slots.get i ≠ .defective)
        | .line _ => true)) d.wbq d.patrol.held ∧
      d = { c with
        physLines := n, fillProgress := 0, wbq := d.wbq, demandCount := 0
        patrol := { c.patrol with
          position := 0, pass := 0, focusCursor := none, focusCount := 0, held := d.patrol.held }
        slots := d.slots, exhausted := d.exhausted, flights := c.flights.map (c.movedBy d) } := by
  have hslots : d.slots = c.slots.map SlotState.restored := by rw [hd, Channel.changePhysLines_eq]
  refine ⟨fun i => hslots ▸ SlotState.get_map_restored c.slots i, ?_, ?_, ?_⟩
  · rw [hd, Channel.changePhysLines_eq, ← any_defective_eq]
  · rw [hd, Channel.changePhysLines_eq, ← Channel.filter_atDefective]
    exact patrolOffers _ _
  · rw [← Channel.movedBy_restored c hslots, hd, Channel.changePhysLines_eq]

end

/-! ### The reply -/

theorem hasRecords_iff {t : List Record} {ch : ChanId} : hasRecords t ch = true ↔ ∃ r ∈ t, r.key.channel = ch := by
  simp [hasRecords]

theorem storedReply_eq (s : State) (id : Byte) (given n : Nat) : storedReply s id given n =
    { state := s, result := if n = given then .ok else .clamped, payload := settingReadout id n, selects := [] } := by
  unfold storedReply
  rw [okOrClamped_ne]

section
variable {s : State} {ch : ChanId} {v : BitVec 32} {n : Nat}

theorem setPhysLinesReply_refused (h : (s.chan ch).state ≠ .disabled ∨ ∃ r ∈ s.table, r.key.channel = ch) :
    setPhysLinesReply ch v s = refuse s .state := if_pos (h.imp_right hasRecords_iff.mpr)

variable (hn : n = storedPhysLines v.toNat) (hst : (s.chan ch).state = .disabled)
  (hrec : ∀ r ∈ s.table, r.key.channel ≠ ch)
include hn hst hrec

theorem setPhysLinesReply_taken : setPhysLinesReply ch v s =
    if n = (s.chan ch).physLines then storedReply s (physLinesId ch) v.toNat n
    else storedReply (s.modChan ch (fun c => c.changePhysLines n)) (physLinesId ch) v.toNat n := by
  have hno : ¬ ((s.chan ch).state ≠ .disabled ∨ hasRecords s.table ch = true) := by
    rintro (h | h)
    · exact h hst
    · obtain ⟨r, hr, hk⟩ := hasRecords_iff.mp h
      exact hrec r hr hk
  subst hn
  exact if_neg hno

end

/-- Settles O16: the refusal, a value that leaves PHYS_LINES as it stood, and a change. -/
theorem physLinesSetting : Obligations.PhysLinesSetting := by
  intro s e ch v n hready hn
  have hpayload : settingReadout (physLinesId ch) n = BitVec.ofNat 8 ch.val ++ (BitVec.ofNat 32 n ++ 0#120) := rfl
  refine ⟨fun h => ?refused, fun hst hrec hsame => ?same, fun hst hrec hne => ?changed⟩
  case refused => exact State.answer_refuse hready (setPhysLinesReply_refused h)
  case same =>
    refine State.answer_plain hready ?_
    rw [setPhysLinesReply_taken hn hst hrec, if_pos hsame.symm, storedReply_eq, hpayload]
  case changed =>
    refine ⟨State.withAnswer (s.modChan ch (fun c => c.changePhysLines n)) s e 0x03 _ _,
      State.answer_plain hready ?_, rfl,
      fun c hc => (State.chan_withAnswer ..).trans (State.chan_modChan_of_ne s ch c _ hc), ?_⟩
    · rw [setPhysLinesReply_taken hn hst hrec, if_neg (Ne.symm hne), storedReply_eq, hpayload]
    · refine Channel.changePhysLines_spec (s.chan ch) n _ ?_
      rw [State.chan_withAnswer, State.chan_modChan_same]

end Sys2Proof.Machine
end

section
/-! SUPPORT. SPARE_QUERY, SPARE_SLOT and SPARE_RESTORE (R143 to R145). -/

namespace Sys2Proof.Machine

/-! ### SPARE_QUERY (R143) -/

/-- Each field of the SPARE_QUERY readout is found by passing over the fields before it. -/
theorem spareQueryReadout_fields (c : Channel) :
    payloadHalf (spareQueryReadout c) 0 = BitVec.ofNat 16 (c.countSlots .free) ∧
      payloadHalf (spareQueryReadout c) 2 = BitVec.ofNat 16 (c.countSlots .allocated) ∧
      payloadHalf (spareQueryReadout c) 4 = BitVec.ofNat 16 (c.countSlots .defective) ∧
      payloadHalf (spareQueryReadout c) 6 = slotField c.lowestFree := by
  unfold payloadHalf spareQueryReadout
  refine ⟨?_, ?_, ?_, ?_⟩
  all_goals
    repeat rw [BitVec.extractLsb'_append_eq_of_add_le (by decide)]
    exact BitVec.extractLsb'_append_eq_left

theorem exec_spareQuery_ready {s : State} (h : s.LinkReady) (e : Nat) (ch : ChanId) :
    exec (.spareQuery e (BitVec.ofNat 8 ch.val)) s =
      .next (s.withAnswer s e 0x22 .ok (spareQueryReadout (s.chan ch))) := by
  rw [exec_spareQuery]
  unfold execSpareQuery
  exact State.answer_reply h (onChannel_ofNat ..)

/-! ### SPARE_SLOT (R144) -/

theorem slotArg_of_512_le {v : BitVec 16} (h : 512 ≤ v.toNat) : slotArg v = none := by
  unfold slotArg
  rw [dif_neg (by omega)]

theorem onSlot_of_512_le {s : State} {b : Byte} {v : BitVec 16} (h : 512 ≤ v.toNat) (f : ChanId → SlotId → Reply) :
    onSlot s b v f = refuse s .range := by
  unfold onSlot
  rw [slotArg_of_512_le h]
  cases channelArg b <;> rfl

/-- The test by which the owner of a slot is looked up (R144). -/
def Record.namesOn (ch : ChanId) (i : SlotId) (r : Record) : Bool :=
  decide (r.key.channel = ch) && (r.spareSlot == some i || r.targetSlot == some i)

theorem Record.namesOn_iff (ch : ChanId) (i : SlotId) (r : Record) :
    r.namesOn ch i = true ↔ r.key.channel = ch ∧ r.names i := by
  simp [Record.namesOn, Record.names]

theorem slotOwner_eq_map (t : List Record) (ch : ChanId) (i : SlotId) : slotOwner t ch i =
    (t.find? (Record.namesOn ch i)).map (fun r => (r, if r.spareSlot = some i then .spare else .target)) := rfl

section
variable {s : State} {ch : ChanId} {i : SlotId}

/-- The one record that names a slot is its owner (R16, R144). -/
theorem State.SparingSound.slotOwner_eq (hs : s.SparingSound) {r : Record} (hr : r ∈ s.table) (hc : r.key.channel = ch)
    (hn : r.names i) : slotOwner s.table ch i = some (r, if r.spareSlot = some i then .spare else .target) := by
  obtain ⟨x, hx⟩ := Option.isSome_iff_exists.mp
    (List.find?_isSome.mpr ⟨r, hr, (Record.namesOn_iff ch i r).mpr ⟨hc, hn⟩⟩)
  obtain ⟨hxc, hxn⟩ := (Record.namesOn_iff ch i x).mp (List.find?_some hx)
  have hxm := List.mem_of_find?_eq_some hx
  have hkey := ((State.sparingSound_iff.mp hs).2.2 ch).unique x hxm r hr hxc hc i hxn hn
  obtain rfl : x = r := State.TableSound.unique hs.1 hxm hr hkey
  rw [slotOwner_eq_map, hx]
  rfl

variable (hready : s.LinkReady)
include hready

theorem exec_spareSlot_ready (e : Nat) :
    exec (.spareSlot e (BitVec.ofNat 8 ch.val) (BitVec.ofNat 16 i.val)) s = .next (s.withAnswer s e 0x23 .ok
      (spareSlotReadout ((s.chan ch).slots.get i) (slotOwner s.table ch i))) := by
  rw [exec_spareSlot]
  unfold execSpareSlot
  exact State.answer_reply hready (onSlot_ofNat ..)

/-- SPARE_SLOT of a slot that a record names returns that record's key and the role (R144). -/
theorem exec_spareSlot_owned (e : Nat) (hs : s.SparingSound) {r : Record} (hr : r ∈ s.table) (hc : r.key.channel = ch)
    (hn : r.names i) : exec (.spareSlot e (BitVec.ofNat 8 ch.val) (BitVec.ofNat 16 i.val)) s =
      .next (s.withAnswer s e 0x23 .ok (1#8 ++ ((if r.spareSlot = some i then 0#8 else 1#8) ++
        (BitVec.ofNat 8 ch.val ++ (BitVec.ofNat 32 r.key.line ++ 0#104))))) := by
  have hslot : (s.chan ch).slots.get i = .allocated := hc ▸ hs.taken_of_names hr hn
  rw [exec_spareSlot_ready hready, hs.slotOwner_eq hr hc hn, hslot, ← hc]
  split <;> rfl

/-- SPARE_SLOT of a slot that is not ALLOCATED returns its state alone (R144). -/
theorem exec_spareSlot_unowned (e : Nat) (h : (s.chan ch).slots.get i ≠ .allocated) :
    exec (.spareSlot e (BitVec.ofNat 8 ch.val) (BitVec.ofNat 16 i.val)) s =
      .next (s.withAnswer s e 0x23 .ok (((s.chan ch).slots.get i).byte ++ (0xFF#8 ++ (0xFF#8 ++ 0#136)))) := by
  rw [exec_spareSlot_ready hready]
  unfold spareSlotReadout
  cases hx : (s.chan ch).slots.get i with
  | allocated => exact absurd hx h
  | free => rfl
  | defective => rfl

/-! ### SPARE_RESTORE (R145) -/

theorem exec_spareRestore_refused (e : Nat) (h : (s.chan ch).slots.get i ≠ .defective) :
    exec (.spareRestore e (BitVec.ofNat 8 ch.val) (BitVec.ofNat 16 i.val)) s =
      .next (s.withAnswer s e 0x24 .state 0) :=
  State.answer_refuse hready ((onSlot_ofNat ..).trans (if_neg h))

theorem exec_spareRestore_taken (e : Nat) (h : (s.chan ch).slots.get i = .defective) :
    exec (.spareRestore e (BitVec.ofNat 8 ch.val) (BitVec.ofNat 16 i.val)) s =
      .next (((s.modChan ch (fun c => c.setSlot i .free)).withAnswer s e 0x24 .ok 0).select ch) :=
  State.answer_select hready ((onSlot_ofNat ..).trans (if_pos h))

end

/-- Settles O28: the readouts, and SPARE_RESTORE by the slot's state. -/
theorem sparePoolCommands : Obligations.SparePoolCommands := by
  intro s e ch hready hs
  refine ⟨?query, fun i => ⟨fun r hr hc hspare => ?spare, fun r hr hc htarget => ?target,
    exec_spareSlot_unowned hready e, exec_spareRestore_refused hready e, fun hd => ?restore⟩, fun v hv => ⟨?_, ?_⟩⟩
  case query =>
    obtain ⟨hfree, hallocated, hdefective, hlowest⟩ := spareQueryReadout_fields (s.chan ch)
    refine ⟨_, exec_spareQuery_ready hready e ch, hfree, hallocated, hdefective, fun i hi hlt => ?_,
      fun hno => ?_⟩
    · rw [hlowest, Channel.lowestFree_eq_some.mpr ⟨hi, hlt⟩]
      rfl
    · rw [hlowest, Channel.lowestFree_eq_none.mpr hno]
      rfl
  case spare => rw [exec_spareSlot_owned hready e hs hr hc (.inl hspare), if_pos hspare]
  case target =>
    have hspare : r.spareSlot ≠ some i := fun h => ((State.sparingSound_iff.mp hs).2.1 r hr).2 i ⟨h, htarget⟩
    rw [exec_spareSlot_owned hready e hs hr hc (.inr htarget), if_neg hspare]
  case restore =>
    obtain ⟨hchan, hdrops⟩ := Channel.setSlot_spec (s.chan ch) i .free
    refine ⟨_, exec_spareRestore_taken hready e hd, rfl,
      fun c hc => (State.chan_withAnswer ..).trans (State.chan_modChan_of_ne s ch c _ hc), ?_⟩
    rw [State.chan_withAnswer, State.chan_modChan_same]
    exact ⟨hdrops (by decide), hchan⟩
  · rw [exec_spareSlot]
    exact State.answer_refuse hready (onSlot_of_512_le hv _)
  · rw [exec_spareRestore]
    exact State.answer_refuse hready (onSlot_of_512_le hv _)

end Sys2Proof.Machine
end

section
/-! SUPPORT. What the soundness of a Patrol Engine looks at (R100, R101, R107, R123), by its current read, and the
operations of a channel that leave it alone. -/

namespace Sys2Proof.Machine

/-! ### The reads in flight and the current read -/

/-- The patrol and focus reads in flight. -/
def Channel.patrolReads (c : Channel) : Nat := c.flights.countP (fun f => f.kind == .patrol)

/-- The reads in flight that an engine awaits: its current read until the decode (R107). -/
def PatrolEngine.awaited (p : PatrolEngine) : Nat :=
  match p.current with
  | some r => if r.decoded then 0 else 1
  | none   => 0

/-- The last two clauses of soundness in one count: a patrol read in flight is the one read that the engine awaits. -/
theorem Channel.patrolReads_le_awaited_iff (c : Channel) : c.patrolReads ≤ c.patrol.awaited ↔
    (c.flights.filter (fun f => f.kind == .patrol)).length ≤ 1 ∧
      ∀ f ∈ c.flights, f.kind = .patrol → ∃ r, c.patrol.current = some r ∧ r.decoded = false := by
  have hnone : c.patrolReads = 0 ↔ ∀ f ∈ c.flights, f.kind ≠ .patrol := by
    simp [Channel.patrolReads, List.countP_eq_zero]
  have hflying : (∃ r, c.patrol.current = some r ∧ r.decoded = false) ↔ c.patrol.awaited = 1 := by
    unfold PatrolEngine.awaited
    cases c.patrol.current <;> simp
  have hone : c.patrol.awaited ≤ 1 := by
    unfold PatrolEngine.awaited
    split
    · split <;> omega
    · omega
  rw [← List.countP_eq_length_filter, hflying]
  change _ ↔ c.patrolReads ≤ 1 ∧ _
  by_cases ha : c.patrol.awaited = 1
  · simp [ha]
  · have hzero : c.patrol.awaited = 0 := by omega
    simp only [hzero, Nat.le_zero, hnone]
    refine ⟨fun h => ⟨(hnone.mpr h).le.trans (Nat.zero_le 1), fun f hf hk => absurd hk (h f hf)⟩, fun h f hf hk => ?_⟩
    exact absurd (h.2 f hf hk) (by decide)

/-! ### Soundness by the current read -/

/-- A channel with nothing left of a patrol read: none current, held or in flight, and no poison write owed by one. -/
structure Channel.Unread (c : Channel) : Prop where
  online  : c.patrol.state = .running ∨ c.patrol.state = .halting → c.state = .online
  current : c.patrol.current = none
  held    : c.patrol.held = []
  owed    : ∀ o ∈ c.owed, o.owner ≠ .patrol
  reads   : c.patrolReads = 0

section
variable {c d : Channel}

theorem Channel.Unread.patrolSound (h : c.Unread) (hst : c.patrol.state ≠ .halting)
    (hwait : c.patrol.startWait = true → c.patrol.state = .running)
    (hpos : c.patrol.position = 0 ∨ c.patrol.position < c.visible) : c.PatrolSound :=
  ⟨h.online, fun _ => h.current, fun k => absurd k hst, fun k => ⟨hwait k, h.current⟩, fun _ => ⟨h.held, h.owed⟩, hpos,
    c.patrolReads_le_awaited_iff.mp (h.reads ▸ Nat.zero_le _)⟩

/-- A sound channel without a current read has nothing left of one. -/
theorem Channel.PatrolSound.unread (h : c.PatrolSound) (hcur : c.patrol.current = none) : c.Unread := by
  obtain ⟨honline, -, -, -, hnone, -, hreads⟩ := h
  refine ⟨honline, hcur, (hnone hcur).1, (hnone hcur).2, ?_⟩
  have := c.patrolReads_le_awaited_iff.mpr hreads
  rwa [PatrolEngine.awaited, hcur, Nat.le_zero] at this

/-- An engine with a current read is RUNNING or HALTING on an ONLINE channel and waits for no pass start. -/
theorem Channel.patrolSound_of_reading {r : PatrolRead} (hcur : c.patrol.current = some r)
    (hst : c.patrol.state = .running ∨ c.patrol.state = .halting) (honline : c.state = .online)
    (hwait : c.patrol.startWait = false) (hpos : c.patrol.position = 0 ∨ c.patrol.position < c.visible)
    (hreads : c.patrolReads ≤ c.patrol.awaited) : c.PatrolSound := by
  refine ⟨fun _ => honline, fun h => ?_, fun _ => by rw [hcur]; rfl, fun h => ?_, fun h => ?_, hpos,
    c.patrolReads_le_awaited_iff.mp hreads⟩
  · rcases hst with k | k <;> rw [k] at h <;> rcases h with h | h <;> cases h
  · rw [hwait] at h; cases h
  · rw [hcur] at h; cases h

theorem Channel.PatrolSound.online (h : c.PatrolSound)
    (hst : c.patrol.state = .running ∨ c.patrol.state = .halting) : c.state = .online := by
  obtain ⟨honline, -⟩ := h
  exact honline hst

theorem Channel.PatrolSound.position (h : c.PatrolSound) :
    c.patrol.position = 0 ∨ c.patrol.position < c.visible := by
  obtain ⟨-, -, -, -, -, hpos, -⟩ := h
  exact hpos

theorem Channel.PatrolSound.reads_le (h : c.PatrolSound) : c.patrolReads ≤ c.patrol.awaited := by
  obtain ⟨-, -, -, -, -, -, hreads⟩ := h
  exact c.patrolReads_le_awaited_iff.mpr hreads

theorem Channel.PatrolSound.starting (h : c.PatrolSound) (hwait : c.patrol.startWait = true) :
    c.patrol.state = .running ∧ c.patrol.current = none := by
  obtain ⟨-, -, -, hstart, -⟩ := h
  exact hstart hwait

theorem Channel.PatrolSound.reading {r : PatrolRead} (h : c.PatrolSound) (hcur : c.patrol.current = some r) :
    (c.patrol.state = .running ∨ c.patrol.state = .halting) ∧ c.state = .online ∧ c.patrol.startWait = false := by
  obtain ⟨honline, hidle, -⟩ := id h
  have hst : c.patrol.state = .running ∨ c.patrol.state = .halting := by
    cases k : c.patrol.state with
    | running => exact .inl rfl
    | halting => exact .inr rfl
    | idle => rw [hidle (.inl k)] at hcur; cases hcur
    | done => rw [hidle (.inr k)] at hcur; cases hcur
  refine ⟨hst, honline hst, Bool.not_eq_true _ ▸ fun k => ?_⟩
  rw [(h.starting k).2] at hcur
  cases hcur

/-- An engine that is neither RUNNING nor HALTING has no current read and waits for no pass start. -/
theorem Channel.PatrolSound.resting (h : c.PatrolSound)
    (hst : c.patrol.state ≠ .running ∧ c.patrol.state ≠ .halting) :
    c.Unread ∧ c.patrol.startWait = false := by
  have hcur : c.patrol.current = none := by
    obtain ⟨-, hidle, -⟩ := h
    refine hidle ?_
    cases k : c.patrol.state with
    | idle => exact .inl rfl
    | done => exact .inr rfl
    | running => exact absurd k hst.1
    | halting => exact absurd k hst.2
  refine ⟨h.unread hcur, Bool.not_eq_true _ ▸ fun k => ?_⟩
  exact hst.1 (h.starting k).1

/-! ### Changes that leave the Patrol Engine alone -/

/-- A change that leaves alone what the soundness of a Patrol Engine looks at, but that held offers, poison writes owed
and patrol reads in flight may go, and none may come where there was none. -/
structure Channel.LeavesPatrol (c d : Channel) : Prop where
  channel   : d.state = c.state
  lines     : d.physLines = c.physLines
  state     : d.patrol.state = c.patrol.state
  startWait : d.patrol.startWait = c.patrol.startWait
  position  : d.patrol.position = c.patrol.position
  current   : d.patrol.current.map PatrolRead.decoded = c.patrol.current.map PatrolRead.decoded
  held      : c.patrol.held = [] → d.patrol.held = []
  owed      : (∀ o ∈ c.owed, o.owner ≠ .patrol) → ∀ o ∈ d.owed, o.owner ≠ .patrol
  reads     : d.patrolReads ≤ c.patrolReads

theorem PatrolEngine.awaited_eq (p : PatrolEngine) :
    p.awaited = if p.current.map PatrolRead.decoded = some false then 1 else 0 := by
  unfold PatrolEngine.awaited
  cases p.current with
  | none => rfl
  | some r => cases h : r.decoded <;> simp [h]

/-- Soundness is kept by such a change. -/
theorem Channel.LeavesPatrol.sound (h : c.LeavesPatrol d) (hc : c.PatrolSound) : d.PatrolSound := by
  have hnone : d.patrol.current = none ↔ c.patrol.current = none := by
    rw [← Option.map_eq_none_iff, h.current, Option.map_eq_none_iff]
  have hvisible : d.visible = c.visible := by unfold Channel.visible; rw [h.lines]
  have hawaited : d.patrol.awaited = c.patrol.awaited := by
    rw [PatrolEngine.awaited_eq, PatrolEngine.awaited_eq, h.current]
  have hreads : d.patrolReads ≤ d.patrol.awaited := hawaited ▸ h.reads.trans hc.reads_le
  obtain ⟨honline, hidle, hhalt, hwait, hleft, hpos, -⟩ := hc
  refine ⟨?_, ?_, ?_, ?_, fun k => ?_, ?_, d.patrolReads_le_awaited_iff.mp hreads⟩
  · rw [h.state, h.channel]; exact honline
  · rw [h.state, hnone]; exact hidle
  · rw [h.state, ← Option.isSome_map (f := PatrolRead.decoded), h.current, Option.isSome_map]; exact hhalt
  · rw [h.startWait, h.state, hnone]; exact hwait
  · obtain ⟨hheld, howed⟩ := hleft (hnone.mp k)
    exact ⟨h.held hheld, h.owed howed⟩
  · rw [h.position, hvisible]; exact hpos

namespace Channel.LeavesPatrol
variable {e : Channel}

theorem trans (h : c.LeavesPatrol d) (k : d.LeavesPatrol e) : c.LeavesPatrol e :=
  ⟨k.channel.trans h.channel, k.lines.trans h.lines, k.state.trans h.state, k.startWait.trans h.startWait,
    k.position.trans h.position, k.current.trans h.current, fun x => k.held (h.held x), fun x => k.owed (h.owed x),
    k.reads.trans h.reads⟩

/-- A change of the held offers, the poison writes owed and the reads in flight. -/
theorem of_left (hs : d.state = c.state) (hl : d.physLines = c.physLines)
    (hp : d.patrol = { c.patrol with held := d.patrol.held }) (hh : c.patrol.held = [] → d.patrol.held = [])
    (ho : (∀ o ∈ c.owed, o.owner ≠ .patrol) → ∀ o ∈ d.owed, o.owner ≠ .patrol)
    (hr : d.patrolReads ≤ c.patrolReads) : c.LeavesPatrol d := by
  refine ⟨hs, hl, ?_, ?_, ?_, ?_, hh, ho, hr⟩ <;> rw [hp]

/-- A change of none of what soundness looks at. -/
theorem of_eq (hs : d.state = c.state) (hl : d.physLines = c.physLines) (hp : d.patrol = c.patrol)
    (ho : d.owed = c.owed) (hf : d.flights = c.flights) : c.LeavesPatrol d := by
  refine of_left hs hl (by rw [hp]) (fun h => hp ▸ h) (fun h => ho ▸ h) ?_
  unfold Channel.patrolReads
  rw [hf]

theorem refl (c : Channel) : c.LeavesPatrol c := of_eq rfl rfl rfl rfl rfl

end Channel.LeavesPatrol

/-- Reads in flight that are marked or renamed among the migration's reads are as many patrol reads as before. -/
theorem countP_patrol_map {f : Flight → Flight} (hf : ∀ x : Flight, (f x).kind = .patrol ↔ x.kind = .patrol)
    (l : List Flight) :
    (l.map f).countP (fun x => x.kind == .patrol) = l.countP (fun x => x.kind == .patrol) := by
  rw [List.countP_map]
  refine List.countP_congr fun x _ => ?_
  simp [hf x]

theorem FlightKind.endMigration_eq_patrol_iff (k : FlightKind) : k.endMigration = .patrol ↔ k = .patrol := by
  cases k <;> simp [FlightKind.endMigration]

/-! ### The operations of a channel -/

theorem Channel.LeavesPatrol.reoffer (h : c.LeavesPatrol d) : c.LeavesPatrol d.reoffer := by
  refine h.trans (.of_left rfl rfl rfl (fun k => ?_) id le_rfl)
  rw [Channel.reoffer, k]
  rfl

theorem Channel.LeavesPatrol.setWbq (h : c.LeavesPatrol d) (q : List WbEntry) : c.LeavesPatrol (d.setWbq q) :=
  h.trans (.of_eq rfl rfl rfl rfl rfl)

theorem Channel.LeavesPatrol.emptyWbq (h : c.LeavesPatrol d) : c.LeavesPatrol d.emptyWbq := (h.setWbq []).reoffer

theorem Channel.LeavesPatrol.dropWrites (h : c.LeavesPatrol d) (p : WbEntry → Bool) :
    c.LeavesPatrol (d.dropWrites p) := by
  have hheld : c.LeavesPatrol { d with patrol := { d.patrol with held := d.patrol.held.filter (fun e => !p e) } } :=
    h.trans (.of_left rfl rfl rfl (fun k => by rw [k]; rfl) id le_rfl)
  unfold Channel.dropWrites
  dsimp only
  split
  · exact (hheld.setWbq _).reoffer
  · exact hheld

theorem Channel.LeavesPatrol.setStage (h : c.LeavesPatrol d) (n : Nat) (x : Stage) : c.LeavesPatrol (d.setStage n x) :=
  h.trans (.of_eq rfl rfl rfl rfl rfl)

theorem Channel.LeavesPatrol.writeLine (h : c.LeavesPatrol d) (l : Loc) (p : Vector CwWrite 8) :
    c.LeavesPatrol (d.writeLine l p) := h.trans (.of_eq rfl rfl rfl rfl rfl)

theorem Channel.leavesPatrol_setSlot (c : Channel) (i : SlotId) (x : SlotState) : c.LeavesPatrol (c.setSlot i x) := by
  have hmarked : c.LeavesPatrol { c with
      slots := c.slots.set i.val x
      exhausted := false
      flights := c.flights.map (fun f => if f.loc = .slot i then { f with moved := true } else f) } :=
    .of_left rfl rfl rfl id id (countP_patrol_map (fun x => by split <;> rfl) c.flights).le
  unfold Channel.setSlot
  dsimp only
  split
  · exact hmarked
  · exact hmarked.dropWrites _

theorem Channel.LeavesPatrol.offerDemands (h : c.LeavesPatrol d) (es : List WbEntry) :
    c.LeavesPatrol (d.offerDemands es) := by
  unfold Channel.offerDemands
  induction es generalizing d with
  | nil => exact h
  | cons e es ih => exact ih (h.trans (.of_eq rfl rfl rfl rfl rfl))

/-- A poison write that another than the Patrol Engine owes. -/
theorem Channel.LeavesPatrol.owe (h : c.LeavesPatrol d) (n : Nat) (l : Loc) (k : CwSet) {o : OwedBy} (ho : o ≠ .patrol) :
    c.LeavesPatrol (d.owe n l k o) := by
  unfold Channel.owe
  split
  · exact h
  · refine h.trans (.of_left rfl rfl rfl id (fun hd w hw => ?_) le_rfl)
    rcases List.mem_append.mp hw with hw | hw
    · exact hd w hw
    · rw [List.mem_singleton.mp hw]
      exact ho

/-- The issue of a read of another kind. -/
theorem Channel.leavesPatrol_issueRead (c : Channel) (ch : ChanId) {k : FlightKind} (hk : k ≠ .patrol) (n : Nat)
    (l : Loc) : c.LeavesPatrol (c.issueRead ch k n l) := by
  refine .of_left rfl rfl rfl id id ?_
  simp [Channel.patrolReads, Channel.issueRead, hk]

theorem Channel.leavesPatrol_popFlight (c : Channel) : c.LeavesPatrol c.popFlight :=
  .of_left rfl rfl rfl id id ((List.tail_sublist c.flights).countP_le)

/-- The end of a migration leaves a patrol read in flight a patrol read (R163). -/
theorem Channel.leavesPatrol_endMigration (c : Channel) : c.LeavesPatrol { c with
    migration := none
    flights := c.flights.map (fun f => { f with kind := f.kind.endMigration }) } :=
  .of_left rfl rfl rfl id id (countP_patrol_map (fun x => x.kind.endMigration_eq_patrol_iff) c.flights).le

theorem Channel.leavesPatrol_dropOwed (c : Channel) (l : Loc) (k : CwSet) : c.LeavesPatrol (c.dropOwed l k) := by
  refine .of_left rfl rfl rfl id (fun h o ho => ?_) le_rfl
  obtain ⟨w, hw, rfl⟩ := List.mem_map.mp (List.mem_of_mem_filter ho)
  split <;> exact h w hw

theorem Channel.leavesPatrol_markSuperseded (c : Channel) (l : Loc) (k : CwSet) :
    c.LeavesPatrol (c.markSuperseded l k) := by
  refine ⟨rfl, rfl, rfl, rfl, rfl, ?_, id, id, le_rfl⟩
  unfold Channel.markSuperseded
  cases c.patrol.current with
  | none => rfl
  | some r =>
    simp only [Option.map_some]
    split <;> rfl

theorem Channel.leavesPatrol_demandDecoded (c : Channel) (q : QEntry) (f : Flight) (wb : Bool)
    (reps : Vector Report 8) : c.LeavesPatrol (c.popFlight.demandDecoded q f wb reps) := by
  have hstage := c.leavesPatrol_popFlight.setStage q.seq (readStage reps)
  unfold Channel.demandDecoded
  dsimp only
  split
  · exact hstage
  · exact (hstage.offerDemands _).owe _ _ _ nofun

end

end Sys2Proof.Machine
end

section
/-! SUPPORT. What every shared operation of the state leaves sound of the Patrol Engines (R100, R101, R107, R123). -/

namespace Sys2Proof.Machine

/-- A change of the state after which every Patrol Engine is sound that was sound before. -/
def State.KeepsPatrols (s t : State) : Prop := ∀ c : ChanId, (s.chan c).PatrolSound → (t.chan c).PatrolSound

namespace State.KeepsPatrols
variable {s t u : State} {ch : ChanId}

theorem trans (h : s.KeepsPatrols t) (k : t.KeepsPatrols u) : s.KeepsPatrols u := fun c hc => k c (h c hc)

/-- A change outside the channels. -/
theorem frame (h : s.KeepsPatrols t) (hc : u.chans = t.chans) : s.KeepsPatrols u := by
  intro c hs
  have huc : u.chan c = t.chan c := by unfold State.chan; rw [hc]
  exact huc ▸ h c hs

theorem refl (s : State) : s.KeepsPatrols s := fun _ => id

theorem of_chans (hc : t.chans = s.chans) : s.KeepsPatrols t := (refl s).frame hc

/-- A change of one channel, the table and the causes. -/
theorem of_only (ho : s.OnlyChannel t ch) (hc : (s.chan ch).PatrolSound → (t.chan ch).PatrolSound) :
    s.KeepsPatrols t := by
  intro c hs
  by_cases e : c = ch
  · exact e ▸ hc (e ▸ hs)
  · exact ho.2 c e ▸ hs

theorem modChan (h : s.KeepsPatrols t) {f : Channel → Channel}
    (hf : (t.chan ch).PatrolSound → (f (t.chan ch)).PatrolSound) : s.KeepsPatrols (t.modChan ch f) :=
  h.trans (.of_only (State.onlyChannel_modChan t ch f) (by rwa [State.chan_modChan_same]))

/-- A change of one channel that leaves its Patrol Engine alone. -/
theorem leaving (h : s.KeepsPatrols t) {f : Channel → Channel} (hf : (t.chan ch).LeavesPatrol (f (t.chan ch))) :
    s.KeepsPatrols (t.modChan ch f) := h.modChan hf.sound

theorem modAllChans (h : s.KeepsPatrols t) {f : Channel → Channel} (hf : ∀ c : Channel, c.PatrolSound → (f c).PatrolSound) :
    s.KeepsPatrols (t.modAllChans f) := h.trans fun c hc => by rw [State.chan_modAllChans]; exact hf _ hc

theorem raise (h : s.KeepsPatrols t) (k : Cause) : s.KeepsPatrols (t.raise k) := h.frame rfl

theorem foldl {α : Type} {f : State → α → State} (hf : ∀ (x : State) (a : α), x.KeepsPatrols (f x a)) (l : List α)
    (h : s.KeepsPatrols t) : s.KeepsPatrols (l.foldl f t) := by
  induction l generalizing t with
  | nil => exact h
  | cons a l ih => exact ih (h.trans (hf t a))

end State.KeepsPatrols

section
variable (s : State) (ch : ChanId)

/-! ### Selections, deliveries and captures -/

theorem Channel.movedBy_kind (c d : Channel) (f : Flight) : (c.movedBy d f).kind = f.kind := rfl

theorem State.keepsPatrols_select : s.KeepsPatrols (s.select ch) := by
  obtain ⟨ho, -, hc, -⟩ := State.select_spec s ch
  refine .of_only ho (Channel.LeavesPatrol.sound (.of_left ?_ ?_ ?_ ?_ ?_ ?reads))
  case reads =>
    unfold Channel.patrolReads
    rw [State.select_moved]
    exact (countP_patrol_map (fun x => by rw [Channel.movedBy_kind]) _).le
  all_goals rw [hc]
  · exact id
  · exact id

theorem State.keepsPatrols_selectAll (l : List ChanId) : s.KeepsPatrols (s.selectAll l) :=
  State.KeepsPatrols.foldl State.keepsPatrols_select l (.refl s)

theorem State.keepsPatrols_deliver (n : Nat) (src : ReadSource) (reps : Vector Report 8) :
    s.KeepsPatrols (s.deliver ch n src reps) := by
  have hrecord : s.KeepsPatrols (s.record ch n src reps).1 := fun c hc => by rwa [State.record_chan]
  unfold State.deliver
  split
  · split
    · exact hrecord.trans (State.keepsPatrols_select _ ch)
    · exact hrecord
  · exact .refl s

theorem State.keepsPatrols_captureRead (src : ReadSource) (n : Nat) (loc : Loc) (tag : Option Byte)
    (reps : Vector Report 8) : s.KeepsPatrols (s.captureRead ch src n loc tag reps) := by
  obtain ⟨ho, -, -, hc⟩ := State.captureRead_spec s ch src n loc tag reps
  exact .of_only ho (Channel.LeavesPatrol.sound (hc ▸ .of_eq rfl rfl rfl rfl rfl))

/-! ### The ends of a migration -/

theorem State.keepsPatrols_dropMigration (m : Migration) (b : Bool) : s.KeepsPatrols (s.dropMigration ch m b) :=
  .of_only (s.dropMigration_onlyChannel ch m b) (by
    rw [State.chan_dropMigration]; exact (s.chan ch).leavesPatrol_endMigration.sound)

theorem State.keepsPatrols_setSlot (i : SlotId) (x : SlotState) :
    s.KeepsPatrols (s.modChan ch (fun c => c.setSlot i x)) :=
  (State.KeepsPatrols.refl s).leaving (Channel.leavesPatrol_setSlot _ i x)

theorem State.keepsPatrols_cancelMigration (b : Bool) : s.KeepsPatrols (s.cancelMigration ch b) := by
  unfold State.cancelMigration
  split
  · exact .refl s
  · next m _ => exact (s.keepsPatrols_dropMigration ch m b).trans (State.keepsPatrols_setSlot _ ch m.target .free)

theorem State.keepsPatrols_failMigration (m : Migration) : s.KeepsPatrols (s.failMigration ch m) :=
  ((s.keepsPatrols_dropMigration ch m true).raise .migrationFailed).trans (State.keepsPatrols_select _ ch)

/-- A migration starts, or takes another target slot, on a slot that becomes ALLOCATED (R149, R160). -/
theorem State.keepsPatrols_allocate (i : SlotId) (m : Migration) : s.KeepsPatrols (s.modChan ch (fun c =>
    { c.setSlot i .allocated with migration := some m })) :=
  (State.KeepsPatrols.refl s).leaving ((Channel.leavesPatrol_setSlot _ i .allocated).trans (.of_eq rfl rfl rfl rfl rfl))

theorem State.keepsPatrols_startMigration (r : Record) (i : SlotId) (b : Bool) :
    s.KeepsPatrols (s.startMigration r i b) := by
  have hrec : s.KeepsPatrols (s.modRec r.key.channel r.key.line (fun x => x.enterSparing i b)) := .of_chans rfl
  exact hrec.trans (State.keepsPatrols_allocate _ _ i _)

theorem State.keepsPatrols_refuseSlots : s.KeepsPatrols (s.refuseSlots ch) := by
  obtain ⟨ho, -, -, hc⟩ := State.refuseSlots_spec s ch
  exact .of_only ho (Channel.LeavesPatrol.sound (hc ▸ .of_eq rfl rfl rfl rfl rfl))

theorem State.keepsPatrols_retryMigration (m : Migration) : s.KeepsPatrols (s.retryMigration ch m) := by
  unfold State.retryMigration
  split
  · next i _ =>
    have hrec : s.KeepsPatrols (s.modRec ch m.line (fun r => { r with targetSlot := some i })) := .of_chans rfl
    exact hrec.trans (State.keepsPatrols_allocate _ ch i _)
  · exact (s.keepsPatrols_refuseSlots ch).trans (State.keepsPatrols_failMigration _ ch m)

theorem State.keepsPatrols_failVerify (m : Migration) : s.KeepsPatrols (s.failVerify ch m) := by
  unfold State.failVerify
  dsimp only
  split
  · exact (s.keepsPatrols_setSlot ch _ _).trans (State.keepsPatrols_retryMigration _ ch m)
  · exact (s.keepsPatrols_setSlot ch _ _).trans (State.keepsPatrols_failMigration _ ch m)

theorem State.keepsPatrols_committed (m : Migration) : s.KeepsPatrols (s.committed ch m) := by
  have hrec : s.KeepsPatrols (s.modRec ch m.line Record.commit) := .of_chans rfl
  have hidle : s.KeepsPatrols ((s.modRec ch m.line Record.commit).modChan ch (fun c => { c with migration := none })) :=
    hrec.leaving (.of_eq rfl rfl rfl rfl rfl)
  unfold State.committed
  dsimp only
  split
  · exact hidle.trans (State.keepsPatrols_setSlot _ ch _ _)
  · exact hidle

theorem State.keepsPatrols_commitMigration (m : Migration) : s.KeepsPatrols (s.commitMigration ch m) := by
  rw [State.commitMigration_eq]
  exact ((s.keepsPatrols_committed ch m).raise .migrationDone).trans (State.keepsPatrols_select _ ch)

/-! ### The decodes of other reads -/

theorem State.keepsPatrols_demandDecode (q : QEntry) (f : Flight) (reps : Vector Report 8) :
    s.KeepsPatrols (s.demandDecode ch q f reps) := by
  have hcap := s.keepsPatrols_captureRead ch .demandRead q.req.line f.loc (some q.req.tag) reps
  unfold State.demandDecode
  dsimp only
  refine State.KeepsPatrols.trans (State.KeepsPatrols.leaving ?_ (Channel.leavesPatrol_demandDecoded _ q f _ reps))
    (State.keepsPatrols_deliver _ ch _ _ _)
  split
  · exact hcap.raise .poisonRead
  · exact hcap

theorem State.keepsPatrols_mergeDecode (q : QEntry) (p : Probe) (data : LineData) (mask : BitVec 64) (f : Flight)
    (reps : Vector Report 8) : s.KeepsPatrols (s.mergeDecode ch q p data mask f reps) := by
  rw [State.mergeDecode_eq]
  exact ((s.keepsPatrols_captureRead ch .demandMerge _ _ _ reps).leaving
    ((Channel.leavesPatrol_popFlight _).setStage _ _)).trans (State.keepsPatrols_deliver _ ch _ _ _)

theorem State.keepsPatrols_migrationReports (f : Flight) (reps : Vector Report 8) :
    s.KeepsPatrols (s.migrationReports ch f reps) :=
  ((s.keepsPatrols_captureRead ch _ _ _ _ reps).leaving (Channel.leavesPatrol_popFlight _)).trans
    (State.keepsPatrols_deliver _ ch _ _ _)

theorem State.keepsPatrols_copyDecode (m : Migration) (f : Flight) (reps : Vector Report 8) :
    s.KeepsPatrols (s.copyDecode ch m f reps) := by
  unfold State.copyDecode
  refine (s.keepsPatrols_migrationReports ch f reps).leaving ?_
  dsimp only
  split
  · exact .of_eq rfl rfl rfl rfl rfl
  · exact ((Channel.LeavesPatrol.refl _).owe _ _ _ (o := .migration) nofun).trans (.of_eq rfl rfl rfl rfl rfl)

theorem State.keepsPatrols_verifyDecode (m : Migration) (f : Flight) (reps : Vector Report 8) :
    s.KeepsPatrols (s.verifyDecode ch m f reps) := by
  unfold State.verifyDecode
  split
  · exact (s.keepsPatrols_migrationReports ch f reps).trans (State.keepsPatrols_commitMigration _ ch m)
  · exact (s.keepsPatrols_migrationReports ch f reps).trans (State.keepsPatrols_failVerify _ ch m)

/-! ### Writes -/

theorem State.keepsPatrols_writeAt (plan : Vector CwWrite 8) (full : CwSet) (loc : Loc) :
    s.KeepsPatrols (s.writeAt ch plan full loc) := by
  have hwritten : s.KeepsPatrols (s.modChan ch (fun c =>
      ((c.writeLine loc plan).dropOwed loc (writtenSet plan)).markSuperseded loc (writtenSet plan))) :=
    (State.KeepsPatrols.refl s).leaving ((((Channel.LeavesPatrol.refl _).writeLine loc plan).trans
      (Channel.leavesPatrol_dropOwed _ _ _)).trans (Channel.leavesPatrol_markSuperseded _ _ _))
  exact hwritten.frame rfl

theorem State.keepsPatrols_handOver (n : Nat) (plan : Vector CwWrite 8) :
    s.KeepsPatrols (s.modChan ch (fun c => c.handOver n plan)) :=
  (State.KeepsPatrols.refl s).leaving (.of_eq rfl rfl rfl rfl rfl)

theorem State.keepsPatrols_issueWrite (n : Nat) (p : Probe) (plan : Vector CwWrite 8) (full : CwSet) :
    s.KeepsPatrols (s.issueWrite ch n p plan full) := by
  have hdropped : s.KeepsPatrols (s.modChan ch (fun c =>
      c.dropWrites (WbEntry.reached (locations p.loc (s.secondAt ch n p)) (writtenSet plan)))) :=
    (State.KeepsPatrols.refl s).leaving ((Channel.LeavesPatrol.refl _).dropWrites _)
  have hwritten := hdropped.foldl (fun x l => x.keepsPatrols_writeAt ch plan full l)
    (locations p.loc (s.secondAt ch n p))
  unfold State.issueWrite
  dsimp only
  split
  · exact hwritten.trans (State.keepsPatrols_handOver _ ch _ _)
  · exact hwritten

theorem State.keepsPatrols_poisonAt (cws : CwSet) (loc : Loc) : s.KeepsPatrols (s.poisonAt ch cws loc) :=
  State.KeepsPatrols.frame (t := s.modChan ch (fun c => c.writeLine loc (poisonPlan cws)))
    ((State.KeepsPatrols.refl s).leaving ((Channel.LeavesPatrol.refl _).writeLine loc _)) rfl

theorem State.keepsPatrols_issuePoison (o : Owed) : s.KeepsPatrols (s.issuePoison ch o) := by
  have hfirst : (s.chan ch).LeavesPatrol { (s.chan ch).clearDemand with owed := (s.chan ch).owed.tail } :=
    .of_left rfl rfl rfl id (fun h w hw => h w (List.mem_of_mem_tail hw)) le_rfl
  have hdropped : s.KeepsPatrols (s.modChan ch (fun c =>
      Channel.dropWrites { c.clearDemand with owed := c.owed.tail }
        (WbEntry.reached (locations o.loc (s.poisonSecond ch o)) o.cws))) :=
    (State.KeepsPatrols.refl s).leaving (hfirst.dropWrites _)
  have hwritten := hdropped.foldl (fun x l => x.keepsPatrols_poisonAt ch o.cws l)
    (locations o.loc (s.poisonSecond ch o))
  unfold State.issuePoison
  dsimp only
  split
  · exact hwritten.trans (State.keepsPatrols_handOver _ ch _ _)
  · exact hwritten

theorem State.keepsPatrols_issueWriteBack (e : WbEntry) : s.KeepsPatrols (s.issueWriteBack ch e) := by
  have hcount : (s.chan ch).LeavesPatrol (s.chan ch).clearDemand := .of_eq rfl rfl rfl rfl rfl
  have hwritten : s.KeepsPatrols (s.modChan ch (fun c =>
      Channel.reoffer (((c.clearDemand).writeLine e.loc (writeBackPlan e)).setWbq (c.wbq.erase e)))) :=
    (State.KeepsPatrols.refl s).leaving ((hcount.writeLine _ _).setWbq _).reoffer
  exact hwritten.frame rfl

end

end Sys2Proof.Machine
end

section
/-! SUPPORT. The Patrol Engine's own operations keep it sound: the walk, pass ends, issue steps, decodes and finishes, and
what the cadence and the resets do to it (R100 to R109, R119, R123). -/

namespace Sys2Proof.Machine

/-! ### The walk and pass ends -/

section
variable {c : Channel}

/-- A channel with nothing left of a read stays so when other items of its engine change. -/
theorem Channel.Unread.modPatrol (h : c.Unread) {f : PatrolEngine → PatrolEngine}
    (hcur : (f c.patrol).current = c.patrol.current) (hheld : (f c.patrol).held = c.patrol.held)
    (honline : (f c.patrol).state = .running ∨ (f c.patrol).state = .halting → c.state = .online) :
    (c.modPatrol f).Unread :=
  ⟨honline, hcur.trans h.current, hheld.trans h.held, h.owed, h.reads⟩

/-- A pass end leaves an engine RUNNING only where it was, and never HALTING (R108). -/
theorem PatrolEngine.endPass_state (p : PatrolEngine) :
    p.endPass.state ≠ .halting ∧ (p.endPass.state = .running → p.state = .running) ∧
      (p.startWait = false → p.endPass.startWait = true → p.endPass.state = .running) := by
  unfold PatrolEngine.endPass
  cases p.state <;> cases p.mode <;> simp

/-- A pass end with nothing left of a read and no pass-start wait (R108). -/
theorem Channel.Unread.endPass (h : c.Unread) (hwait : c.patrol.startWait = false) :
    (c.modPatrol PatrolEngine.endPass).PatrolSound := by
  obtain ⟨hhalt, hrun, hstart⟩ := c.patrol.endPass_state
  have hunread : (c.modPatrol PatrolEngine.endPass).Unread :=
    h.modPatrol rfl rfl fun k => h.online (k.imp hrun fun k => absurd k hhalt)
  exact hunread.patrolSound hhalt (hstart hwait) (.inl rfl)

end

section
variable {s : State} {ch : ChanId}

theorem State.patrolSound_endPass (h : (s.chan ch).Unread) (hwait : (s.chan ch).patrol.startWait = false) :
    ((s.endPass ch).chan ch).PatrolSound := by
  rw [State.endPass_chan]
  exact h.endPass hwait

/-- An engine that has nothing left of a read and comes to a line stands at it, or the pass ends (R105). -/
theorem State.patrolSound_comeTo (h : (s.chan ch).Unread) (hst : (s.chan ch).patrol.state ≠ .halting)
    (hwait : (s.chan ch).patrol.startWait = false) (n : Nat) : ((s.comeTo ch n).chan ch).PatrolSound := by
  unfold State.comeTo
  split
  · next l hl =>
    rw [State.chan_modChan_same]
    have hunread : ((s.chan ch).modPatrol (fun p => { p with position := l })).Unread := h.modPatrol rfl rfl h.online
    refine hunread.patrolSound hst (fun k => ?_) (.inr (nextPatrolled_some hl).2.1)
    rw [Channel.modPatrol_patrol, hwait] at k
    cases k
  · exact State.patrolSound_endPass h hwait

/-! ### Issue steps (R106, R119) -/

/-- The issue of a patrol read by a RUNNING engine with no current read: it is the one read in flight. -/
theorem Channel.PatrolSound.issuePatrol {c : Channel} (h : c.PatrolSound) (hrun : c.patrol.state = .running)
    (hcur : c.patrol.current = none) (hwait : c.patrol.startWait = false) {g : PatrolEngine → PatrolEngine}
    (hg : (g c.patrol).state = c.patrol.state ∧ (g c.patrol).startWait = c.patrol.startWait)
    (hpos : (g c.patrol).position = 0 ∨ (g c.patrol).position < c.visible) (ch : ChanId) (k : PatrolKind) (n : Nat)
    (l : Loc) : ((c.modPatrol g).issuePatrol ch k n l).PatrolSound := by
  have hunread := h.unread hcur
  refine Channel.patrolSound_of_reading rfl (.inl (hg.1.trans hrun)) (hunread.online (.inl hrun))
    (hg.2.trans hwait) hpos ?_
  show (c.flights ++ [_]).countP (fun f : Flight => f.kind == FlightKind.patrol) ≤ 1
  rw [List.countP_append]
  have hnone := hunread.reads
  unfold Channel.patrolReads at hnone
  simp [hnone]

theorem State.readTarget_lt {l : Nat} (h : s.readTarget ch = some l) :
    l = (s.chan ch).patrol.position ∨ l < (s.chan ch).visible := by
  unfold State.readTarget at h
  dsimp only at h
  split at h
  · exact .inr (leastFrom_some h).2.1
  · exact .inl (Option.some.inj h).symm

theorem State.yields_ordinaryStep (hready : (s.chan ch).patrolReady = true) :
    Yields s.KeepsPatrols True (s.ordinaryStep ch) := by
  obtain ⟨hrun, hcur, hwait, -⟩ := (Channel.patrolReady_iff _).mp hready
  unfold State.ordinaryStep
  split
  · next l hl =>
    refine s.yields_atLines ch _ ((State.KeepsPatrols.refl s).modChan fun hc => ?_)
    refine hc.issuePatrol hrun hcur hwait ⟨rfl, rfl⟩ ?_ ch .ordinary l _
    rcases State.readTarget_lt hl with e | e
    · exact e ▸ hc.position
    · exact .inr e
  · exact .of_only (s.endPass_onlyChannel ch) fun hc => State.patrolSound_endPass (hc.unread hcur) hwait

/-- What an outcome yields from a state that has been reached on the way. -/
theorem Yields.keepsAfter {s u : State} {o : Host.Outcome State Fault Refusal} (h : s.KeepsPatrols u)
    (ho : Yields u.KeepsPatrols True o) : Yields s.KeepsPatrols True o := by
  cases o with
  | next t => exact h.trans ho
  | fault _ => exact ho
  | refused _ => exact ho

theorem Channel.mergeHold_ne_patrolStep (c : Channel) : c.mergeHold ≠ some (some .patrolStep) := by
  unfold Channel.mergeHold
  split
  · split <;> simp
  · simp

theorem State.demandOp_ne_patrolStep (s : State) (ch : ChanId) : s.demandOp ch ≠ some .patrolStep := by
  unfold State.demandOp
  split
  · simp
  · split
    · simp
    · split
      · simp
      · split <;> simp
    · simp

theorem Channel.migrationOp_ne_patrolStep (c : Channel) : c.migrationOp ≠ some .patrolStep := by
  unfold Channel.migrationOp
  split
  · simp
  · split
    · split <;> simp
    · simp
    · split <;> simp

/-- The patrol step is the last of the arbiter's list, taken where the engine is ready for it (R96, R106). -/
theorem State.patrolReady_of_nextOp (h : s.nextOp ch = some .patrolStep) : (s.chan ch).patrolReady = true := by
  unfold State.nextOp at h
  split at h
  · split at h <;> cases h
  · split at h <;> cases h
  split at h
  · next o ho => exact absurd (h ▸ ho) (Channel.mergeHold_ne_patrolStep _)
  split at h
  · cases h
  split at h
  · cases h
  split at h
  · next o ho => exact absurd (ho.trans h) (s.demandOp_ne_patrolStep ch)
  unfold Channel.maintenanceOp at h
  split at h
  · cases h
  split at h
  · next o ho => exact absurd (ho.trans h) (Channel.migrationOp_ne_patrolStep _)
  split at h
  · assumption
  · cases h

theorem State.yields_patrolIssueStep : Yields s.KeepsPatrols True (execPatrolIssueStep ch s) := by
  unfold execPatrolIssueStep
  split
  case h_2 => exact State.KeepsPatrols.refl s
  next hop =>
  have hready := State.patrolReady_of_nextOp hop
  obtain ⟨hrun, hcur, hwait, -⟩ := (Channel.patrolReady_iff _).mp hready
  split
  · split
    · exact s.yields_atLines ch _ ((State.KeepsPatrols.refl s).modChan fun hc =>
        hc.issuePatrol hrun hcur hwait ⟨rfl, rfl⟩ hc.position ch .focus _ _)
    · have hcounted : s.KeepsPatrols (s.modChan ch (fun c => c.modPatrol (fun p => { p with focusCount := 0 }))) :=
        (State.KeepsPatrols.refl s).leaving ⟨rfl, rfl, rfl, rfl, rfl, rfl, id, id, le_rfl⟩
      exact .keepsAfter hcounted (State.yields_ordinaryStep (by rw [State.chan_modChan_same]; exact hready))
  · exact State.yields_ordinaryStep hready

/-! ### The decode and the finish of a read (R107, R110) -/

/-- The decode of the current read: the one patrol read in flight has left. -/
theorem Channel.PatrolSound.patrolDecoded {c : Channel} {r : PatrolRead} {f : Flight} {rest : List Flight}
    (h : c.PatrolSound) (hcur : c.patrol.current = some r) (hfl : c.flights = f :: rest) (hk : f.kind = .patrol)
    (b : Bool) (reps : Vector Report 8) : (c.popFlight.patrolDecoded r f b reps).PatrolSound := by
  obtain ⟨hst, honline, hwait⟩ := h.reading hcur
  have hnone : rest.countP (fun f => f.kind == .patrol) = 0 := by
    have hle := h.reads_le
    unfold Channel.patrolReads PatrolEngine.awaited at hle
    rw [hfl, hcur, List.countP_cons_of_pos (by simp [hk])] at hle
    dsimp only at hle
    split at hle <;> omega
  unfold Channel.patrolDecoded
  refine Channel.patrolSound_of_reading (r := { r with decoded := true }) ?_ ?_ ?_ ?_ ?_ ?_
  · rw [Channel.owe_patrol]; rfl
  · rw [Channel.owe_patrol]; exact hst
  · rw [Channel.owe_state]; exact honline
  · rw [Channel.owe_patrol]; exact hwait
  · rw [Channel.owe_patrol]
    unfold Channel.visible
    rw [Channel.owe_physLines]
    exact h.position
  · unfold Channel.patrolReads
    rw [Channel.owe_flights]
    show c.flights.tail.countP _ ≤ _
    rw [hfl, List.tail_cons, hnone]
    exact Nat.zero_le _

theorem State.keepsPatrols_patrolDecode {r : PatrolRead} {f : Flight} {rest : List Flight}
    (hcur : (s.chan ch).patrol.current = some r) (hfl : (s.chan ch).flights = f :: rest) (hk : f.kind = .patrol)
    (reps : Vector Report 8) : s.KeepsPatrols (s.patrolDecode ch r f reps) := by
  obtain ⟨-, -, -, hc⟩ := State.captureRead_spec s ch r.kind.source r.line f.loc none reps
  have hcap := s.keepsPatrols_captureRead ch r.kind.source r.line f.loc none reps
  refine State.KeepsPatrols.trans (hcap.modChan fun hs => ?_) (State.keepsPatrols_deliver _ ch _ _ _)
  exact hs.patrolDecoded (by rw [hc]; exact hcur) (by rw [hc]; exact hfl) hk _ reps

theorem State.yields_patrolReadDecode (u : LineWords) : Yields s.KeepsPatrols True (execPatrolReadDecode ch u s) := by
  unfold execPatrolReadDecode
  split
  case h_2 => exact State.KeepsPatrols.refl s
  next f rest hfl =>
  split
  case h_2 => exact State.KeepsPatrols.refl s
  next r hk hcur => exact State.keepsPatrols_patrolDecode hcur hfl hk _

/-- A current read that can finish leaves nothing behind (R107). -/
theorem Channel.PatrolSound.finished {c : Channel} {r : PatrolRead} (h : c.PatrolSound)
    (hcur : c.patrol.current = some r) (hfin : c.canFinish r = true) :
    (c.modPatrol (fun p => { p with current := none })).Unread := by
  obtain ⟨-, honline, -⟩ := h.reading hcur
  simp only [Channel.canFinish, Bool.and_eq_true, List.isEmpty_iff, Bool.not_eq_true', List.any_eq_false,
    beq_iff_eq] at hfin
  obtain ⟨⟨hdec, hheld⟩, howed⟩ := hfin
  refine ⟨fun _ => honline, rfl, hheld, howed, ?_⟩
  have hle := h.reads_le
  rw [PatrolEngine.awaited, hcur] at hle
  simp only [hdec, if_true] at hle
  exact Nat.le_zero.mp hle

/-- An engine with nothing left of a read becomes IDLE. -/
theorem Channel.Unread.idle {c : Channel} (h : c.Unread) (hwait : c.patrol.startWait = false) {n : Nat}
    (hpos : n = 0 ∨ n < c.visible) :
    (c.modPatrol (fun p => { p with position := n, state := .idle })).PatrolSound := by
  have hunread : (c.modPatrol (fun p => { p with position := n, state := .idle })).Unread :=
    h.modPatrol rfl rfl (by simp)
  refine hunread.patrolSound (by simp) (fun k => ?_) hpos
  rw [Channel.modPatrol_patrol, hwait] at k
  cases k

/-- After the finish of a HALTING engine's ordinary read (R107): IDLE one line further, or a pass end. -/
theorem State.patrolSound_haltFinish (h : (s.chan ch).Unread) (hwait : (s.chan ch).patrol.startWait = false) :
    ((s.haltFinish ch).chan ch).PatrolSound := by
  unfold State.haltFinish
  split
  · next hlt =>
    rw [State.chan_modChan_same]
    exact h.idle hwait (.inr hlt)
  · exact State.patrolSound_endPass h hwait

theorem State.haltFinish_onlyChannel (s : State) (ch : ChanId) : s.OnlyChannel (s.haltFinish ch) ch := by
  unfold State.haltFinish
  split
  · exact State.onlyChannel_modChan _ _ _
  · exact State.endPass_onlyChannel _ _

/-- The state in which the current read has gone, before the engine moves on (R107). -/
def State.readGone (s : State) (ch : ChanId) : State :=
  s.modChan ch (fun c => c.modPatrol (fun p => { p with current := none }))

theorem State.readGone_chan (s : State) (ch : ChanId) :
    (s.readGone ch).chan ch = (s.chan ch).modPatrol (fun p => { p with current := none }) :=
  State.chan_modChan_same s ch _

theorem State.readGone_onlyChannel (s : State) (ch : ChanId) : s.OnlyChannel (s.readGone ch) ch :=
  State.onlyChannel_modChan _ _ _

/-- What the finish of a current read does, by the engine's state and the read's kind (R104, R107). -/
theorem execPatrolReadFinish_eq {r : PatrolRead} (hcur : (s.chan ch).patrol.current = some r)
    (hfin : (s.chan ch).canFinish r = true) :
    execPatrolReadFinish ch s = .next (match (s.chan ch).patrol.state, r.kind with
      | .running, .ordinary => (s.readGone ch).comeTo ch ((s.chan ch).patrol.position + 1)
      | .running, .focus => s.readGone ch
      | _, .ordinary =>
          if r.acrossReset then (s.readGone ch).modChan ch (fun c => c.modPatrol (fun p => { p with state := .idle }))
          else (s.readGone ch).haltFinish ch
      | _, .focus => (s.readGone ch).modChan ch (fun c => c.modPatrol (fun p => { p with state := .idle }))) := by
  unfold execPatrolReadFinish
  simp only [hcur, hfin, if_true]
  cases (s.chan ch).patrol.state with
  | running => cases r.kind <;> rfl
  | _ =>
    cases r.kind
    · dsimp only
      split <;> rfl
    · rfl

theorem State.keepsPatrols_readFinish {r : PatrolRead} (hcur : (s.chan ch).patrol.current = some r)
    (hfin : (s.chan ch).canFinish r = true) {t : State} (h : execPatrolReadFinish ch s = .next t) :
    s.KeepsPatrols t := by
  have ho := s.readGone_onlyChannel ch
  have hleft : (s.chan ch).PatrolSound → ((s.readGone ch).chan ch).Unread ∧
      ((s.readGone ch).chan ch).patrol.startWait = false :=
    fun hc => by rw [State.readGone_chan]; exact ⟨hc.finished hcur hfin, (hc.reading hcur).2.2⟩
  have hidle : s.KeepsPatrols ((s.readGone ch).modChan ch (fun c => c.modPatrol (fun p => { p with state := .idle }))) := by
    refine .of_only (ho.trans (State.onlyChannel_modChan _ ch _)) fun hc => ?_
    rw [State.chan_modChan_same]
    refine (hleft hc).1.idle (hleft hc).2 ?_
    rw [State.readGone_chan]
    exact hc.position
  rw [execPatrolReadFinish_eq hcur hfin, Host.Outcome.next.injEq] at h
  subst h
  split
  · next hst _ =>
    refine State.KeepsPatrols.of_only (ho.trans (State.comeTo_onlyChannel _ ch _)) fun hc =>
      State.patrolSound_comeTo (hleft hc).1 ?_ (hleft hc).2 _
    rw [State.readGone_chan, Channel.modPatrol_patrol, hst]
    decide
  · next hst _ =>
    refine State.KeepsPatrols.of_only ho fun hc => (hleft hc).1.patrolSound ?_ (fun _ => ?_) ?_ <;>
      rw [State.readGone_chan]
    · rw [Channel.modPatrol_patrol, hst]; decide
    · exact hst
    · exact hc.position
  · split
    · exact hidle
    · exact State.KeepsPatrols.of_only (ho.trans (State.haltFinish_onlyChannel _ ch)) fun hc =>
        State.patrolSound_haltFinish (hleft hc).1 (hleft hc).2
  · exact hidle

theorem State.yields_patrolReadFinish : Yields s.KeepsPatrols True (execPatrolReadFinish ch s) := by
  cases hcur : (s.chan ch).patrol.current with
  | none =>
    unfold execPatrolReadFinish
    rw [hcur]
    exact State.KeepsPatrols.refl s
  | some r =>
    by_cases hfin : (s.chan ch).canFinish r = true
    · have h := execPatrolReadFinish_eq hcur hfin
      rw [h]
      exact State.keepsPatrols_readFinish hcur hfin h
    · unfold execPatrolReadFinish
      simp only [hcur, hfin]
      exact State.KeepsPatrols.refl s

/-! ### The commands of the patrol (R102, R103) -/

theorem State.keepsPatrols_startPatrol (hst : (s.chan ch).patrol.state ≠ .running ∧ (s.chan ch).patrol.state ≠ .halting)
    (honline : (s.chan ch).state = .online) (m : PatrolMode) (start : Option Nat) :
    s.KeepsPatrols (s.startPatrol ch m start) := by
  refine .of_only ((State.onlyChannel_modChan _ ch _).trans (State.comeTo_onlyChannel _ ch _)) fun hc =>
    State.patrolSound_comeTo ?_ ?_ ?_ _ <;> rw [State.chan_modChan_same]
  · exact (hc.resting hst).1.modPatrol rfl rfl fun _ => honline
  · simp
  · rfl

/-- PATROL_HALT by the engine's state and current read (R103). -/
theorem PatrolEngine.halt_eq (p : PatrolEngine) : p.halt = { p with
    state := if p.state = .running then (if p.current.isSome then .halting else .idle) else p.state
    startWait := if p.state = .running ∧ p.current = none then false else p.startWait } := by
  obtain ⟨st, _, _, _, _, _, cur, _, _⟩ := p
  cases st with
  | running => cases cur <;> rfl
  | _ => rfl

/-- PATROL_HALT: IDLE without a current read, HALTING with one, and no change in another state (R103). -/
theorem Channel.PatrolSound.halt {c : Channel} (h : c.PatrolSound) : (c.modPatrol PatrolEngine.halt).PatrolSound := by
  rw [Channel.modPatrol, PatrolEngine.halt_eq]
  by_cases hrun : c.patrol.state = .running
  · cases hcur : c.patrol.current with
    | none =>
      have hunread := (h.unread hcur).modPatrol (f := fun p => { p with state := .idle, startWait := false })
        rfl rfl (by simp)
      simpa [Channel.modPatrol, hrun, hcur] using hunread.patrolSound (by simp) (by simp) h.position
    | some r =>
      obtain ⟨-, honline, hwait⟩ := h.reading hcur
      have hhalting : ({ c with patrol := { c.patrol with state := .halting } } : Channel).PatrolSound :=
        Channel.patrolSound_of_reading hcur (.inr rfl) honline hwait h.position h.reads_le
      simpa [hrun, hcur] using hhalting
  · simpa [hrun] using h

/-! ### Settings and resets -/

/-- SOFT_RESET makes an engine HALTING while its current read is unfinished, else IDLE (R104). -/
theorem Channel.PatrolSound.softReset {c : Channel} (h : c.PatrolSound) : c.softReset.PatrolSound := by
  have hengine : ({ c with patrol := c.patrol.softReset, exhausted := false } : Channel).PatrolSound := by
    cases hcur : c.patrol.current with
    | none =>
      obtain ⟨-, -, hheld, howed, hreads⟩ := h.unread hcur
      have hidle : c.patrol.softReset.state = .idle := by unfold PatrolEngine.softReset; rw [hcur]; rfl
      have hunread : ({ c with patrol := c.patrol.softReset, exhausted := false } : Channel).Unread :=
        ⟨by simp [hidle], by unfold PatrolEngine.softReset; rw [hcur]; rfl, hheld, howed, hreads⟩
      exact hunread.patrolSound (by simp [hidle]) nofun (.inl rfl)
    | some r =>
      obtain ⟨-, honline, -⟩ := h.reading hcur
      have hreads := h.reads_le
      rw [PatrolEngine.awaited, hcur] at hreads
      refine Channel.patrolSound_of_reading (r := { r with acrossReset := true }) ?_ (.inr ?_) honline rfl (.inl rfl) ?_
      · unfold PatrolEngine.softReset; rw [hcur]; rfl
      · unfold PatrolEngine.softReset; rw [hcur]; rfl
      · unfold PatrolEngine.awaited PatrolEngine.softReset; rw [hcur]; exact hreads
  have hemptied := (Channel.LeavesPatrol.refl
    ({ c with patrol := c.patrol.softReset, exhausted := false } : Channel)).emptyWbq
  have hcleared : ({ c with patrol := c.patrol.softReset, exhausted := false } : Channel).LeavesPatrol c.softReset :=
    hemptied.trans (.of_eq rfl rfl rfl rfl rfl)
  exact hcleared.sound hengine

/-- A change of PHYS_LINES takes the position back to 0 (R101). -/
theorem Channel.PatrolSound.changePhysLines {c : Channel} (h : c.PatrolSound) (n : Nat) :
    (c.changePhysLines n).PatrolSound := by
  have hfreed : c.LeavesPatrol (Channel.freeDefective { c with wbq := [] }) := by
    unfold Channel.freeDefective
    refine Channel.LeavesPatrol.dropWrites ?_ _
    refine .of_left rfl rfl rfl id id ?_
    exact (countP_patrol_map (fun x => by split <;> rfl) c.flights).le
  obtain ⟨honline, hidle, hhalt, hwait, hnone, -, hone, hflying⟩ := hfreed.emptyWbq.sound h
  exact ⟨honline, hidle, hhalt, hwait, hnone, .inl rfl, hone, hflying⟩

/-! ### The cadence -/

/-- A slot start that gives a budget ends the pass-start wait: the engine comes to line 0 (R109). -/
theorem State.keepsPatrols_endWait (s : State) (ch : ChanId) : s.KeepsPatrols (s.endWait ch) := by
  refine .of_only (State.endWait_spec s ch).1 fun hc => ?_
  unfold State.endWait
  split
  · next hw =>
    obtain ⟨hwait, -⟩ := Bool.and_eq_true_iff.mp hw
    obtain ⟨hrun, hcur⟩ := hc.starting hwait
    refine State.patrolSound_comeTo ?_ ?_ ?_ 0 <;> rw [State.chan_modChan_same]
    · exact (hc.unread hcur).modPatrol rfl rfl (hc.unread hcur).online
    · rw [Channel.modPatrol_patrol, hrun]; decide
    · rfl
  · exact hc

theorem State.keepsPatrols_slotStart (s : State) (slot : Nat) : s.KeepsPatrols (s.slotStart slot) := by
  have hopened : s.KeepsPatrols (s.slotOpened slot) :=
    (State.KeepsPatrols.of_chans (s := s) rfl).modAllChans fun c =>
      (Channel.LeavesPatrol.of_eq (c := c) rfl rfl rfl rfl rfl).sound
  rw [State.slotStart_eq]
  exact hopened.foldl State.keepsPatrols_endWait _

theorem State.keepsPatrols_closeSlot (s : State) : s.KeepsPatrols s.closeSlot :=
  (State.KeepsPatrols.of_chans (s := s) rfl).modAllChans fun c =>
    (Channel.LeavesPatrol.of_eq (c := c) rfl rfl rfl rfl rfl).sound

/-- A frame that starts once items outside the channels have been set. -/
theorem State.KeepsPatrols.frameStart {s t : State} (h : s.KeepsPatrols t) : s.KeepsPatrols t.frameStart := by
  unfold State.frameStart
  refine State.KeepsPatrols.trans ?_ (State.keepsPatrols_slotStart _ 0)
  exact h.frame rfl

theorem State.keepsPatrols_endSlot (s : State) (slot : Nat) : s.KeepsPatrols (s.endSlot slot) := by
  unfold State.endSlot
  split
  · exact s.keepsPatrols_slotStart _
  · split
    · exact (State.KeepsPatrols.refl s).frameStart
    · exact s.keepsPatrols_closeSlot

theorem State.keepsPatrols_expire (s : State) : s.KeepsPatrols s.expire :=
  ((State.KeepsPatrols.of_chans rfl : s.KeepsPatrols { s with
    cadence := { s.cadence with activeSource := .internal, watchdogRef := none } }).frameStart).raise .cadenceLost

theorem State.keepsPatrols_beatFrame (s : State) : s.KeepsPatrols s.beatFrame :=
  (State.KeepsPatrols.of_chans rfl : s.KeepsPatrols { s with
    cadence := { s.cadence with activeSource := .external, watchdogRef := some s.now } }).frameStart

theorem State.keepsPatrols_tick (s : State) : s.KeepsPatrols s.tick := by
  unfold State.tick
  split
  · exact .of_chans rfl
  split
  · exact s.keepsPatrols_expire
  split
  · unfold State.endOpenSlot
    split
    · exact s.keepsPatrols_endSlot _
    · exact s.keepsPatrols_closeSlot
  · exact .of_chans rfl

/-- After the power-on reset every engine is IDLE with nothing left of a read (R99). -/
theorem Channel.patrolSound_powerOn (d : List (Nat × Codeword)) (n : Nat) : (Channel.powerOn d n).PatrolSound :=
  Channel.Unread.patrolSound ⟨nofun, rfl, rfl, nofun, rfl⟩ nofun nofun (.inl rfl)

theorem State.keepsPatrols_powerOnAgain (s : State) : s.KeepsPatrols s.powerOnAgain := by
  intro c _
  rw [State.powerOnAgain_chan]
  exact Channel.patrolSound_powerOn _ _

theorem State.keepsPatrols_heldInReset (s : State) : s.KeepsPatrols s.heldInReset :=
  (s.keepsPatrols_powerOnAgain.trans (State.keepsPatrols_closeSlot _)).frame rfl

theorem State.keepsPatrols_softReset (s : State) : s.KeepsPatrols s.softReset := by
  have hemptied : s.KeepsPatrols (s.modAllChans (fun c => { c with wbq := [] })) :=
    (State.KeepsPatrols.refl s).modAllChans fun c => (Channel.LeavesPatrol.of_eq (c := c) rfl rfl rfl rfl rfl).sound
  have habandoned : s.KeepsPatrols s.abandonAll :=
    hemptied.foldl (fun x c => x.keepsPatrols_cancelMigration c false) _
  have hreset : s.KeepsPatrols (s.abandonAll.modAllChans Channel.softReset) :=
    habandoned.modAllChans fun _ => Channel.PatrolSound.softReset
  have hrestarted : s.KeepsPatrols (s.abandonAll.modAllChans Channel.softReset).restartCadence := by
    unfold State.restartCadence
    exact State.KeepsPatrols.frameStart (hreset.frame rfl)
  unfold State.softReset
  exact hrestarted.frame rfl

end

end Sys2Proof.Machine
end

section
/-! SUPPORT. Every command and every step keeps the Patrol Engines sound. -/

namespace Sys2Proof.Machine

section
variable {s : State} {ch : ChanId}

/-! ### Requests, and the issues and decodes of the other units -/

theorem keepsPatrols_requestArrival (req : Request) : Yields s.KeepsPatrols True (execRequestArrival ch req s) := by
  unfold execRequestArrival
  split
  · exact State.KeepsPatrols.refl s
  split
  · exact (State.KeepsPatrols.refl s).raise .protocol
  · exact (State.KeepsPatrols.refl s).leaving (.of_eq rfl rfl rfl rfl rfl)

theorem keepsPatrols_responseDeparture : Yields s.KeepsPatrols True (execResponseDeparture ch s) := by
  unfold execResponseDeparture
  split
  · exact State.KeepsPatrols.refl s
  split
  · exact State.KeepsPatrols.refl s
  · exact (State.KeepsPatrols.refl s).leaving (.of_eq rfl rfl rfl rfl rfl)

/-- The issue of a demand or merge read. -/
theorem Channel.leavesPatrol_demandIssue (c : Channel) (ch : ChanId) {k : FlightKind} (hk : k ≠ .patrol) (n m : Nat)
    (l : Loc) (x : Stage) : c.LeavesPatrol (((c.countDemand).issueRead ch k n l).setStage m x) := by
  have hcount : c.LeavesPatrol c.countDemand := .of_eq rfl rfl rfl rfl rfl
  exact (hcount.trans (Channel.leavesPatrol_issueRead _ ch hk n l)).setStage m x

theorem keepsPatrols_demandReadIssue : Yields s.KeepsPatrols True (execDemandReadIssue ch s) := by
  unfold execDemandReadIssue
  split
  · exact s.yields_atLines ch _ ((State.KeepsPatrols.refl s).leaving
      (Channel.leavesPatrol_demandIssue _ ch (by simp) _ _ _ _))
  · exact State.KeepsPatrols.refl s

theorem keepsPatrols_mergeReadIssue : Yields s.KeepsPatrols True (execMergeReadIssue ch s) := by
  unfold execMergeReadIssue
  split
  · exact s.yields_atLines ch _ ((State.KeepsPatrols.refl s).leaving
      (Channel.leavesPatrol_demandIssue _ ch (by simp) _ _ _ _))
  · exact State.KeepsPatrols.refl s

theorem keepsPatrols_demandWriteIssue : Yields s.KeepsPatrols True (execDemandWriteIssue ch s) := by
  have hcount : s.KeepsPatrols (s.modChan ch (fun c => c.countDemand)) :=
    (State.KeepsPatrols.refl s).leaving (.of_eq rfl rfl rfl rfl rfl)
  unfold execDemandWriteIssue
  split
  · split
    · exact s.yields_atLines ch _ ((hcount.trans (State.keepsPatrols_issueWrite _ ch _ _ _ _)).leaving
        ((Channel.LeavesPatrol.refl _).setStage _ _))
    · exact State.KeepsPatrols.refl s
  · exact State.KeepsPatrols.refl s

theorem keepsPatrols_mergeWriteIssue : Yields s.KeepsPatrols True (execMergeWriteIssue ch s) := by
  have hcount : ∀ p : Probe, s.KeepsPatrols (s.modChan ch (fun c => c.countMergeWrite p)) :=
    fun p => (State.KeepsPatrols.refl s).leaving (.of_eq rfl rfl rfl rfl rfl)
  unfold execMergeWriteIssue
  split
  · split
    · exact s.yields_atLines ch _ (((hcount _).trans (State.keepsPatrols_issueWrite _ ch _ _ _ _)).leaving
        ((Channel.LeavesPatrol.refl _).setStage _ _))
    · exact State.KeepsPatrols.refl s
  · exact State.KeepsPatrols.refl s

theorem keepsPatrols_poisonWriteIssue : Yields s.KeepsPatrols True (execPoisonWriteIssue ch s) := by
  unfold execPoisonWriteIssue
  split
  · exact s.yields_atLines ch _ (s.keepsPatrols_issuePoison ch _)
  · exact State.KeepsPatrols.refl s

theorem keepsPatrols_writeBackIssue : Yields s.KeepsPatrols True (execWriteBackIssue ch s) := by
  unfold execWriteBackIssue
  split
  · exact s.yields_atLines ch _ (s.keepsPatrols_issueWriteBack ch _)
  · exact State.KeepsPatrols.refl s

/-- A channel whose state changes keeps its Patrol Engine sound if it is ONLINE where the engine needs it (R100). -/
theorem Channel.PatrolSound.withState {c : Channel} (h : c.PatrolSound) {x : ChannelState}
    (hx : c.patrol.state = .running ∨ c.patrol.state = .halting → x = .online) (n : Nat) :
    ({ c with state := x, fillProgress := n } : Channel).PatrolSound := by
  obtain ⟨-, hrest⟩ := h
  exact ⟨hx, hrest⟩

theorem Channel.PatrolSound.fillStep {c : Channel} (h : c.PatrolSound) : c.fillStep.PatrolSound := by
  have hwritten : (c.clearDemand.writeLine (.line c.fillProgress) fillPlan).PatrolSound :=
    (Channel.LeavesPatrol.writeLine (.of_eq rfl rfl rfl rfl rfl) _ _).sound h
  refine hwritten.withState (fun k => ?_) _
  split
  · rfl
  · exact h.online k

theorem keepsPatrols_fillWriteIssue : Yields s.KeepsPatrols True (execFillWriteIssue ch s) := by
  have hfill : s.KeepsPatrols (s.modChan ch Channel.fillStep) :=
    (State.KeepsPatrols.refl s).modChan Channel.PatrolSound.fillStep
  unfold execFillWriteIssue
  split
  · refine s.yields_atLines ch _ ?_
    split
    · exact hfill.raise .channelReady
    · exact hfill
  · exact State.KeepsPatrols.refl s

/-- The issue of a migration read, with its unit of budget spent. -/
theorem Channel.leavesPatrol_migrationIssue (c : Channel) (ch : ChanId) {k : FlightKind} (hk : k ≠ .patrol) (n : Nat)
    (l : Loc) (m : Option Migration) :
    c.LeavesPatrol { (c.clearDemand.spend).issueRead ch k n l with migration := m } := by
  have hspent : c.LeavesPatrol c.clearDemand.spend := .of_eq rfl rfl rfl rfl rfl
  exact (hspent.trans (Channel.leavesPatrol_issueRead _ ch hk n l)).trans (.of_eq rfl rfl rfl rfl rfl)

theorem keepsPatrols_copyReadIssue : Yields s.KeepsPatrols True (execCopyReadIssue ch s) := by
  unfold execCopyReadIssue
  split
  · exact s.yields_atLines ch _ ((State.KeepsPatrols.refl s).leaving
      (Channel.leavesPatrol_migrationIssue _ ch (by simp) _ _ _))
  · exact State.KeepsPatrols.refl s

theorem keepsPatrols_verifyReadIssue : Yields s.KeepsPatrols True (execVerifyReadIssue ch s) := by
  unfold execVerifyReadIssue
  split
  · exact s.yields_atLines ch _ ((State.KeepsPatrols.refl s).leaving
      (Channel.leavesPatrol_migrationIssue _ ch (by simp) _ _ _))
  · exact State.KeepsPatrols.refl s

theorem keepsPatrols_copyWriteIssue : Yields s.KeepsPatrols True (execCopyWriteIssue ch s) := by
  unfold execCopyWriteIssue
  split
  · exact s.yields_atLines ch _ ((State.KeepsPatrols.refl s).leaving (.of_eq rfl rfl rfl rfl rfl))
  · exact State.KeepsPatrols.refl s

theorem keepsPatrols_demandReadDecode (u : LineWords) : Yields s.KeepsPatrols True (execDemandReadDecode ch u s) := by
  unfold execDemandReadDecode
  split
  · split
    · split
      · exact s.keepsPatrols_demandDecode ch _ _ _
      · exact State.KeepsPatrols.refl s
    · exact State.KeepsPatrols.refl s
  · exact State.KeepsPatrols.refl s

theorem keepsPatrols_mergeReadDecode (u : LineWords) : Yields s.KeepsPatrols True (execMergeReadDecode ch u s) := by
  unfold execMergeReadDecode
  split
  · split
    · split
      · split
        · exact s.keepsPatrols_mergeDecode ch _ _ _ _ _ _
        · exact State.KeepsPatrols.refl s
      · exact State.KeepsPatrols.refl s
    · exact State.KeepsPatrols.refl s
  · exact State.KeepsPatrols.refl s

theorem keepsPatrols_copyReadDecode (u : LineWords) : Yields s.KeepsPatrols True (execCopyReadDecode ch u s) := by
  unfold execCopyReadDecode
  split
  · split
    · exact s.keepsPatrols_copyDecode ch _ _ _
    · exact s.keepsPatrols_migrationReports ch _ _
    · exact State.KeepsPatrols.refl s
  · exact State.KeepsPatrols.refl s

theorem keepsPatrols_verifyReadDecode (u : LineWords) : Yields s.KeepsPatrols True (execVerifyReadDecode ch u s) := by
  unfold execVerifyReadDecode
  split
  · split
    · exact s.keepsPatrols_verifyDecode ch _ _ _
    · exact s.keepsPatrols_migrationReports ch _ _
    · exact State.KeepsPatrols.refl s
  · exact State.KeepsPatrols.refl s

/-! ### The cadence and the reset -/

theorem State.keepsPatrols_passTo (s : State) (n : Nat) : s.KeepsPatrols (s.passTo n) := .of_chans rfl

theorem keepsPatrols_slotEnd : Yields s.KeepsPatrols True (execSlotEnd s) := by
  unfold execSlotEnd
  split
  · split
    · exact State.KeepsPatrols.refl s
    · exact (s.keepsPatrols_passTo _).trans (State.keepsPatrols_endSlot _ _)
  · exact State.KeepsPatrols.refl s

theorem keepsPatrols_watchdogExpiry : Yields s.KeepsPatrols True (execWatchdogExpiry s) := by
  unfold execWatchdogExpiry
  split
  · split
    · exact State.KeepsPatrols.refl s
    · exact (s.keepsPatrols_passTo _).trans (State.keepsPatrols_expire _)
  · exact State.KeepsPatrols.refl s

theorem keepsPatrols_beat : Yields s.KeepsPatrols True (execBeat s) := by
  unfold execBeat
  split
  · exact State.KeepsPatrols.refl s
  split
  · exact s.keepsPatrols_beatFrame
  · exact s.keepsPatrols_beatFrame
  · exact State.KeepsPatrols.refl s

theorem keepsPatrols_resetEnd (b : Bool) : Yields s.KeepsPatrols True (execResetEnd b s) := by
  unfold execResetEnd
  split
  · exact s.keepsPatrols_powerOnAgain.frame rfl
  · exact State.KeepsPatrols.refl s

/-! ### The link -/

theorem State.keepsPatrols_transact {f : State → State} (hf : s.KeepsPatrols (f s)) :
    Yields s.KeepsPatrols True (s.transact f) := by
  unfold State.transact
  split
  · exact State.KeepsPatrols.of_chans rfl
  split
  · exact State.KeepsPatrols.of_chans rfl
  · exact hf

/-- A good transaction keeps the engines sound if its command does; so do the selections after it. -/
theorem State.keepsPatrols_answer {e : Nat} {code : Byte} {f : State → Reply} (hf : s.KeepsPatrols (f s).state) :
    Yields s.KeepsPatrols True (s.answer e code f) :=
  State.keepsPatrols_transact (State.KeepsPatrols.trans (hf.frame (u := (f s).respond s e code) rfl)
    (State.keepsPatrols_selectAll _ _))

theorem State.keepsPatrols_linkError (s : State) (bits : Nat) (code : Byte) (r : Result) :
    s.KeepsPatrols (s.linkError bits code r) := by
  refine .of_chans ?_
  unfold State.linkError State.linkFaultAt
  dsimp only
  split <;> rfl

theorem withRecord_keepsPatrols {b : Byte} {line : BitVec 32} {f : ChanId → Record → Reply}
    (hf : ∀ (c : ChanId) (r : Record), s.KeepsPatrols (f c r).state) :
    s.KeepsPatrols (withRecord s b line f).state := by
  unfold withRecord
  split
  · exact .refl s
  split
  · exact .refl s
  · exact hf _ _

theorem onChannel_keepsPatrols {b : Byte} {f : ChanId → Reply} (hf : ∀ c : ChanId, s.KeepsPatrols (f c).state) :
    s.KeepsPatrols (onChannel s b f).state := by
  unfold onChannel
  split
  · exact .refl s
  · exact hf _

theorem onSlot_keepsPatrols {b : Byte} {slot : BitVec 16} {f : ChanId → SlotId → Reply}
    (hf : ∀ (c : ChanId) (i : SlotId), s.KeepsPatrols (f c i).state) :
    s.KeepsPatrols (onSlot s b slot f).state := by
  unfold onSlot
  split
  · exact hf _ _
  · exact .refl s

/-! ### The settings -/

theorem setPhysLinesReply_keepsPatrols (v : BitVec 32) : s.KeepsPatrols (setPhysLinesReply ch v s).state := by
  unfold setPhysLinesReply
  dsimp only
  split
  · exact .refl s
  split
  · exact .refl s
  · exact State.KeepsPatrols.modChan (.refl s) (f := fun c => c.changePhysLines _)
      fun h => Channel.PatrolSound.changePhysLines h _

theorem setCadenceSourceReply_keepsPatrols (v : BitVec 32) : s.KeepsPatrols (setCadenceSourceReply v s).state := by
  unfold setCadenceSourceReply
  split
  · exact .refl s
  rw [storedReply_state]
  unfold State.changeSource
  dsimp only
  split
  · exact .of_chans rfl
  · split
    · exact .of_chans rfl
    · split
      · exact State.KeepsPatrols.frameStart (.of_chans rfl)
      · exact .of_chans rfl
  · exact .refl s

theorem setCadenceTimeoutReply_keepsPatrols (v : BitVec 32) : s.KeepsPatrols (setCadenceTimeoutReply v s).state := by
  have hstored : ∀ f : Settings → Settings, s.KeepsPatrols (s.modSettings f) := fun _ => .of_chans rfl
  unfold setCadenceTimeoutReply
  rw [storedReply_state]
  unfold State.changeTimeout
  dsimp only
  split
  · split
    · exact (hstored _).trans (State.keepsPatrols_expire _)
    · exact hstored _
  · exact hstored _

theorem setFocusIntervalReply_keepsPatrols (v : BitVec 32) : s.KeepsPatrols (setFocusIntervalReply v s).state := by
  have hstored : ∀ f : Settings → Settings, s.KeepsPatrols (s.modSettings f) := fun _ => .of_chans rfl
  unfold setFocusIntervalReply
  rw [storedReply_state]
  unfold State.changeFocus
  dsimp only
  split
  · refine (hstored _).modAllChans fun c => Channel.LeavesPatrol.sound ?_
    exact ⟨rfl, rfl, rfl, rfl, rfl, rfl, id, id, le_rfl⟩
  · exact hstored _

theorem setSettingReply_keepsPatrols (id : Byte) (v : BitVec 32) : s.KeepsPatrols (setSettingReply id v s).state := by
  unfold setSettingReply
  cases settingOf id with
  | none => exact .refl s
  | some k =>
    cases k with
    | physLines ch => exact setPhysLinesReply_keepsPatrols v
    | focusInterval => exact setFocusIntervalReply_keepsPatrols v
    | cadenceSource => exact setCadenceSourceReply_keepsPatrols v
    | cadenceTimeout => exact setCadenceTimeoutReply_keepsPatrols v
    | _ => exact .of_chans rfl

/-! ### The record commands and the sparing commands -/

theorem changeUnlessRetired_keepsPatrols (b : Byte) (line : BitVec 32) (f : Record → Record)
    (selects : ChanId → Record → List ChanId) : s.KeepsPatrols (changeUnlessRetired b line f selects s).state := by
  refine withRecord_keepsPatrols fun c r => ?_
  split
  · exact .refl s
  · exact .of_chans rfl

theorem State.keepsPatrols_adopt (s : State) (k : Key) (a : AdoptAs) : s.KeepsPatrols (s.adopt k a) := by
  have hrec : s.KeepsPatrols { s with table := insertRec s.table (Machine.adopted k a) } := .of_chans rfl
  cases a with
  | spared i => exact hrec.trans (State.keepsPatrols_setSlot _ k.channel i .allocated)
  | watch => exact hrec
  | retired => exact hrec

theorem adoptReply_keepsPatrols (b : Byte) (line : BitVec 32) (st : Byte) (slot : BitVec 16) :
    s.KeepsPatrols (adoptReply b line st slot s).state := by
  unfold adoptReply
  split
  · split
    · exact .refl s
    split
    · exact .refl s
    split
    · exact .refl s
    split
    · exact .refl s
    · exact s.keepsPatrols_adopt _ _
  · exact .refl s

theorem State.keepsPatrols_retire (s : State) (c : ChanId) (n : Nat) (r : Record) : s.KeepsPatrols (s.retire c n r) := by
  have hcancel : s.KeepsPatrols (s.retireCancel c r) := by
    unfold State.retireCancel
    split
    · exact s.keepsPatrols_cancelMigration c true
    · exact .refl s
  have hslot : s.KeepsPatrols ((s.retireCancel c r).retireSlot c n) := by
    unfold State.retireSlot
    split
    · exact hcancel.trans (State.keepsPatrols_setSlot _ c _ .free)
    · exact hcancel
  exact hslot.frame rfl

theorem retireReply_keepsPatrols (b : Byte) (line : BitVec 32) : s.KeepsPatrols (retireReply b line s).state := by
  refine withRecord_keepsPatrols fun c r => ?_
  split
  · exact .refl s
  · exact s.keepsPatrols_retire c _ r

theorem releaseReply_keepsPatrols (b : Byte) (line : BitVec 32) : s.KeepsPatrols (releaseReply b line s).state := by
  refine withRecord_keepsPatrols fun c r => ?_
  split
  · exact .of_chans rfl
  · exact .refl s

theorem spareReply_keepsPatrols (b : Byte) (line : BitVec 32) : s.KeepsPatrols (spareReply b line s).state := by
  refine withRecord_keepsPatrols fun c r => ?_
  split
  · exact .refl s
  split
  · exact .refl s
  split
  · exact .refl s
  · exact s.keepsPatrols_startMigration r _ true

theorem cancelReply_keepsPatrols (b : Byte) (line : BitVec 32) : s.KeepsPatrols (cancelReply b line s).state := by
  refine withRecord_keepsPatrols fun c r => ?_
  split
  · exact s.keepsPatrols_cancelMigration c true
  · exact .refl s

theorem spareRestoreReply_keepsPatrols (b : Byte) (slot : BitVec 16) :
    s.KeepsPatrols (spareRestoreReply b slot s).state := by
  refine onSlot_keepsPatrols fun c i => ?_
  split
  · exact s.keepsPatrols_setSlot c i .free
  · exact .refl s

/-! ### The commands of the channels and the patrol -/

theorem channelFillReply_keepsPatrols (b : Byte) : s.KeepsPatrols (channelFillReply b s).state := by
  refine onChannel_keepsPatrols fun c => ?_
  split
  · exact .refl s
  next hst =>
  split
  · exact .refl s
  have hfilling : s.KeepsPatrols (s.modChan c (fun d => { d.emptyWbq with state := .initializing, fillProgress := 0 })) :=
    State.KeepsPatrols.modChan (.refl s) fun h =>
      (Channel.LeavesPatrol.sound (Channel.LeavesPatrol.refl (s.chan c)).emptyWbq h).withState
        (fun k => absurd (h.online k) (by rw [not_not.mp hst]; decide)) 0
  exact hfilling.frame rfl

theorem State.keepsPatrols_setChannel {x : ChannelState}
    (hx : (s.chan ch).PatrolSound → (s.chan ch).patrol.state = .running ∨ (s.chan ch).patrol.state = .halting →
      x = .online) : s.KeepsPatrols (s.setChannel ch x) :=
  (State.KeepsPatrols.refl s).modChan fun h => h.withState (hx h) _

theorem channelOnlineReply_keepsPatrols (b : Byte) : s.KeepsPatrols (channelOnlineReply b s).state := by
  refine onChannel_keepsPatrols fun c => ?_
  split
  · exact .refl s
  split
  · exact .refl s
  · exact State.keepsPatrols_setChannel fun _ _ => rfl

/-- A channel goes offline from INITIALIZING, or from ONLINE with its engine IDLE or DONE (R77). -/
theorem channelOfflineReply_keepsPatrols (b : Byte) : s.KeepsPatrols (channelOfflineReply b s).state := by
  refine onChannel_keepsPatrols fun c => ?_
  split
  · exact .refl s
  · next hst => exact State.keepsPatrols_setChannel fun h k => absurd (h.online k) (by rw [hst]; decide)
  split
  · next hrest =>
    obtain ⟨-, hidle, -⟩ := (Channel.atRest_iff _).mp hrest
    refine State.keepsPatrols_setChannel fun _ k => ?_
    rcases k with k | k <;> rw [k] at hidle <;> rcases hidle with e | e <;> cases e
  · exact .refl s

theorem patrolStartReply_keepsPatrols (b mode flag : Byte) (start : BitVec 32) :
    s.KeepsPatrols (patrolStartReply b mode flag start s).state := by
  unfold patrolStartReply
  split
  · split
    · exact .refl s
    next honline =>
    split
    · exact .refl s
    next hst =>
    split
    · exact .refl s
    · exact State.keepsPatrols_startPatrol (not_or.mp hst) (not_not.mp honline) _ _
  · exact .refl s

theorem patrolHalt_keepsPatrols (b : Byte) : s.KeepsPatrols (onChannel s b (fun c =>
    patrolReply (s.modChan c (fun d => d.modPatrol PatrolEngine.halt)) c .ok)).state :=
  onChannel_keepsPatrols fun _ => State.KeepsPatrols.modChan (.refl s) Channel.PatrolSound.halt

/-! ### The commands that leave every channel alone -/

theorem statusReply_chans (page : Byte) : (statusReply page s).state.chans = s.chans := by
  unfold statusReply
  split
  · rfl
  · split <;> rfl

theorem getSettingReply_chans (id : Byte) : (getSettingReply id s).state.chans = s.chans := by
  unfold getSettingReply
  split <;> rfl

theorem regionSetReply_chans (index enabled chans : Byte) (first last : BitVec 32) (cls : Byte) :
    (regionSetReply index enabled chans first last cls s).state.chans = s.chans := by
  unfold regionSetReply
  split
  · unfold regionStore
    split
    · rfl
    · split <;> rfl
  · rfl

theorem regionGetReply_chans (index : Byte) : (regionGetReply index s).state.chans = s.chans := by
  unfold regionGetReply
  split <;> rfl

theorem classSetReply_chans (cls : Byte) (tHot tSpare : BitVec 16) (auto wb : Byte) :
    (classSetReply cls tHot tSpare auto wb s).state.chans = s.chans := by
  unfold classSetReply
  split <;> rfl

theorem classGetReply_chans (cls : Byte) : (classGetReply cls s).state.chans = s.chans := by
  unfold classGetReply
  split <;> rfl

theorem setPhaseReply_chans (b : Byte) : (setPhaseReply b s).state.chans = s.chans := by
  unfold setPhaseReply
  split <;> rfl

theorem profileSetReply_chans (b : Byte) (mask : BitVec 32) (ops : Byte) :
    (profileSetReply b mask ops s).state.chans = s.chans := by
  unfold profileSetReply
  split <;> rfl

theorem profileGetReply_chans (b : Byte) : (profileGetReply b s).state.chans = s.chans := by
  unfold profileGetReply
  split <;> rfl

theorem alertAckReply_chans (k : BitVec 16) : (alertAckReply k s).state.chans = s.chans := by
  unfold alertAckReply
  split <;> rfl

/-- Such a command keeps every Patrol Engine sound. -/
theorem State.keepsPatrols_answer_of_chans {e : Nat} {code : Byte} {f : State → Reply}
    (hf : (f s).state.chans = s.chans) : Yields s.KeepsPatrols True (s.answer e code f) :=
  State.keepsPatrols_answer (.of_chans hf)

end

/-! ### Every command and every step -/

/-- Every command leads to a state whose Patrol Engines are sound if they were. -/
theorem exec_keepsPatrols (i : Instr) (s : State) : Yields s.KeepsPatrols True (exec i s) := by
  cases i with
  | requestArrival ch req => exact keepsPatrols_requestArrival req
  | responseDeparture ch => exact keepsPatrols_responseDeparture
  | demandReadIssue ch => exact keepsPatrols_demandReadIssue
  | demandWriteIssue ch => exact keepsPatrols_demandWriteIssue
  | mergeReadIssue ch => exact keepsPatrols_mergeReadIssue
  | mergeReadDecode ch u => exact keepsPatrols_mergeReadDecode u
  | mergeWriteIssue ch => exact keepsPatrols_mergeWriteIssue
  | poisonWriteIssue ch => exact keepsPatrols_poisonWriteIssue
  | writeBackIssue ch => exact keepsPatrols_writeBackIssue
  | fillWriteIssue ch => exact keepsPatrols_fillWriteIssue
  | copyReadIssue ch => exact keepsPatrols_copyReadIssue
  | copyReadDecode ch u => exact keepsPatrols_copyReadDecode u
  | copyWriteIssue ch => exact keepsPatrols_copyWriteIssue
  | verifyReadIssue ch => exact keepsPatrols_verifyReadIssue
  | verifyReadDecode ch u => exact keepsPatrols_verifyReadDecode u
  | patrolIssueStep ch => exact State.yields_patrolIssueStep
  | patrolReadDecode ch u => exact State.yields_patrolReadDecode u
  | patrolReadFinish ch => exact State.yields_patrolReadFinish
  | demandReadDecode ch u => exact keepsPatrols_demandReadDecode u
  | slotEnd => exact keepsPatrols_slotEnd
  | beat => exact keepsPatrols_beat
  | watchdogExpiry => exact keepsPatrols_watchdogExpiry
  | resetAssert => exact s.keepsPatrols_heldInReset
  | resetEnd b => exact keepsPatrols_resetEnd b
  | linkShort bits =>
    exact State.keepsPatrols_transact (f := fun t => t.linkError bits 0x00 .short) (s.keepsPatrols_linkError _ _ _)
  | linkCheckError e code =>
    exact State.keepsPatrols_transact (f := fun t => t.linkError (192 + e) code .checkError)
      (s.keepsPatrols_linkError _ _ _)
  | unknown => exact State.keepsPatrols_answer_of_chans (f := fun t => refuse t .unknown) rfl
  | nop => exact State.keepsPatrols_answer_of_chans (f := fun t => reply t 0) rfl
  | status e page => exact State.keepsPatrols_answer_of_chans (statusReply_chans page)
  | getSetting e id => exact State.keepsPatrols_answer_of_chans (getSettingReply_chans id)
  | setSetting e id v => exact State.keepsPatrols_answer (setSettingReply_keepsPatrols id v)
  | setPhysLines e ch v => exact State.keepsPatrols_answer (setPhysLinesReply_keepsPatrols v)
  | setCadenceSource e v => exact State.keepsPatrols_answer (setCadenceSourceReply_keepsPatrols v)
  | setCadenceTimeout e v => exact State.keepsPatrols_answer (setCadenceTimeoutReply_keepsPatrols v)
  | setFocusInterval e v => exact State.keepsPatrols_answer (setFocusIntervalReply_keepsPatrols v)
  | setAlertMask e v => exact State.keepsPatrols_answer_of_chans (f := setAlertMaskReply v) rfl
  | softReset => exact State.keepsPatrols_answer (f := softResetReply) s.keepsPatrols_softReset
  | lookup e b line =>
    exact State.keepsPatrols_answer (f := lookupReply b line) (withRecord_keepsPatrols fun _ _ => .refl s)
  | next e flag b line filter =>
    exact State.keepsPatrols_answer_of_chans (congrArg State.chans (nextReply_state flag b line filter s))
  | adopt e b line st slot => exact State.keepsPatrols_answer (adoptReply_keepsPatrols b line st slot)
  | pin => exact State.keepsPatrols_answer (changeUnlessRetired_keepsPatrols _ _ _ _)
  | unpin => exact State.keepsPatrols_answer (changeUnlessRetired_keepsPatrols _ _ _ _)
  | retire e b line => exact State.keepsPatrols_answer (retireReply_keepsPatrols b line)
  | release e b line => exact State.keepsPatrols_answer (releaseReply_keepsPatrols b line)
  | clearHold => exact State.keepsPatrols_answer (changeUnlessRetired_keepsPatrols _ _ _ _)
  | spare e b line => exact State.keepsPatrols_answer (spareReply_keepsPatrols b line)
  | cancel e b line => exact State.keepsPatrols_answer (cancelReply_keepsPatrols b line)
  | spareQuery e b =>
    exact State.keepsPatrols_answer (f := fun t => onChannel t b (fun c => reply t (spareQueryReadout (t.chan c))))
      (onChannel_keepsPatrols fun _ => .refl s)
  | spareSlot e b slot =>
    exact State.keepsPatrols_answer (f := fun t => onSlot t b slot (fun c i =>
      reply t (spareSlotReadout ((t.chan c).slots.get i) (slotOwner t.table c i))))
      (onSlot_keepsPatrols fun _ _ => .refl s)
  | spareRestore e b slot => exact State.keepsPatrols_answer (spareRestoreReply_keepsPatrols b slot)
  | regionSet => exact State.keepsPatrols_answer_of_chans (regionSetReply_chans _ _ _ _ _ _)
  | regionGet e index => exact State.keepsPatrols_answer_of_chans (regionGetReply_chans index)
  | classSet => exact State.keepsPatrols_answer_of_chans (classSetReply_chans _ _ _ _ _)
  | classGet e cls => exact State.keepsPatrols_answer_of_chans (classGetReply_chans cls)
  | channelFill e b => exact State.keepsPatrols_answer (channelFillReply_keepsPatrols b)
  | channelOnline e b => exact State.keepsPatrols_answer (channelOnlineReply_keepsPatrols b)
  | channelOffline e b => exact State.keepsPatrols_answer (channelOfflineReply_keepsPatrols b)
  | patrolStart => exact State.keepsPatrols_answer (patrolStartReply_keepsPatrols _ _ _ _)
  | patrolHalt e b =>
    exact State.keepsPatrols_answer (f := fun t => onChannel t b (fun c =>
      patrolReply (t.modChan c (fun d => d.modPatrol PatrolEngine.halt)) c .ok)) (patrolHalt_keepsPatrols b)
  | setPhase e b => exact State.keepsPatrols_answer_of_chans (setPhaseReply_chans b)
  | profileSet e b mask ops => exact State.keepsPatrols_answer_of_chans (profileSetReply_chans b mask ops)
  | profileGet e b => exact State.keepsPatrols_answer_of_chans (profileGetReply_chans b)
  | captureRead e b =>
    exact State.keepsPatrols_answer
      (f := fun t => onChannel t b (fun c => reply t (captureReadout c (t.chan c).capture)))
      (onChannel_keepsPatrols fun _ => .refl s)
  | captureClear e b =>
    exact State.keepsPatrols_answer (f := fun t => onChannel t b (fun c =>
      reply (t.modChan c (fun d => { d with capture := none })) (captureReadout c (t.chan c).capture)))
      (onChannel_keepsPatrols fun _ => (State.KeepsPatrols.refl s).leaving (.of_eq rfl rfl rfl rfl rfl))
  | countsRead e b =>
    exact State.keepsPatrols_answer (f := fun t => onChannel t b (fun c => reply t (countsReadout (t.chan c))))
      (onChannel_keepsPatrols fun _ => .refl s)
  | countsClear e b =>
    exact State.keepsPatrols_answer (f := fun t => onChannel t b (fun c =>
      reply (t.modChan c (fun d => { d with ceCount := 0, ueCount := 0 })) (countsReadout (t.chan c))))
      (onChannel_keepsPatrols fun _ => (State.KeepsPatrols.refl s).leaving (.of_eq rfl rfl rfl rfl rfl))
  | alertRead => exact State.keepsPatrols_answer_of_chans (f := fun t => reply t (alertReadout t)) rfl
  | alertAck e k => exact State.keepsPatrols_answer_of_chans (alertAckReply_chans k)

theorem step_keepsPatrols {s t : State} (h : step s = .next t) : s.KeepsPatrols t := by
  unfold step at h
  split at h
  · next i rest _ =>
    have hexec := exec_keepsPatrols i { s with pending := rest }
    rw [h] at hexec
    exact State.KeepsPatrols.trans (t := { s with pending := rest }) (.of_chans rfl) hexec
  · cases h
    exact s.keepsPatrols_tick

/-- Settles O59: every command and the passing of time keep each Patrol Engine sound, channel by channel. -/
theorem stepsKeepPatrolsSound : Obligations.StepsKeepPatrolsSound :=
  fun _ _ hs h c => step_keepsPatrols h c (hs c)

end Sys2Proof.Machine
end

section
/-! SUPPORT. SET_SETTING of CADENCE_TIMEOUT, FOCUS_INTERVAL and ALERT_MASK (R118, R128, R131, R176, R196), with what a frame
start and a watchdog expiry set. -/

namespace Sys2Proof.Machine

section
variable (s : State)

/-! ### Frame starts and the watchdog -/

theorem State.slotStart_cadence (slot : Nat) : (s.slotStart slot).cadence =
    { s.cadence with slotIndex := some slot, slotEnd := some (s.now + s.settings.slotLen) } := by
  have h := congrArg State.cadence (s.slotStart_spec slot).1
  exact h

theorem State.slotStart_settings (slot : Nat) : (s.slotStart slot).settings = s.settings := by
  have h := congrArg State.settings (s.slotStart_spec slot).1
  exact h

theorem State.slotStart_now (slot : Nat) : (s.slotStart slot).now = s.now := by
  have h := congrArg State.now (s.slotStart_spec slot).1
  exact h

/-- What a frame start sets, and what of the Cadence Unit it leaves (R125). -/
theorem State.frameStart_spec : s.FrameBegun s.frameStart ∧
    s.frameStart.cadence.activeSource = s.cadence.activeSource ∧
    s.frameStart.cadence.watchdogRef = s.cadence.watchdogRef ∧
    s.frameStart.settings = s.settings ∧ s.frameStart.now = s.now := by
  unfold State.FrameBegun State.frameStart
  rw [State.slotStart_cadence, State.slotStart_settings, State.slotStart_now]
  exact ⟨⟨rfl, rfl, rfl, rfl, rfl⟩, rfl, rfl, rfl, rfl⟩

/-- A watchdog expiry: a frame begins, frames are INTERNAL, no reference is left, and CADENCE_LOST is raised (R129). -/
theorem State.expire_spec : s.FrameBegun s.expire ∧ s.expire.cadence.activeSource = .internal ∧
    s.expire.cadence.watchdogRef = none ∧ s.expire.settings = s.settings ∧ s.expire.now = s.now ∧
    hasCause s.expire.causes .cadenceLost = true := by
  obtain ⟨hframe, hsource, href, hsettings, hnow⟩ := State.frameStart_spec { s with
    cadence := { s.cadence with activeSource := .internal, watchdogRef := none } }
  unfold State.expire State.FrameBegun
  simp only [State.raise_cadence, State.raise_settings, State.raise_now, State.raise_causes, hasCause_raise]
  exact ⟨hframe, hsource, href, hsettings, hnow, by simp⟩

end

section
variable {s : State} {n : Nat}

/-! ### CADENCE_TIMEOUT -/

/-- A timeout that has not passed since the watchdog's reference is stored and does nothing else (R128). -/
theorem State.changeTimeout_running (h : ∀ r, s.cadence.watchdogRef = some r → s.now < r + n) :
    s.changeTimeout n = { s with settings := { s.settings with cadenceTimeout := n } } := by
  unfold State.changeTimeout
  dsimp only
  split
  · next due hdue =>
    obtain ⟨r, hr, rfl⟩ := Option.map_eq_some_iff.mp hdue
    exact if_neg fun k => absurd (h r hr) (Nat.not_lt.mpr k.2)
  · rfl

/-- A new timeout that has passed since the reference makes the watchdog expire at the change (R128, R131). -/
theorem State.changeTimeout_expired {r : Nat} (hne : n ≠ s.settings.cadenceTimeout)
    (hr : s.cadence.watchdogRef = some r) (hdue : r + n ≤ s.now) :
    s.changeTimeout n = (s.modSettings (fun c => { c with cadenceTimeout := n })).expire := by
  have hw : (s.modSettings (fun c => { c with cadenceTimeout := n })).watchdogDue = some (r + n) := by
    unfold State.watchdogDue
    rw [State.modSettings_cadence, hr]
    rfl
  unfold State.changeTimeout
  simp only [hw]
  exact if_pos ⟨hne, hdue⟩

/-! ### FOCUS_INTERVAL and ALERT_MASK -/

theorem State.changeFocus_ne_zero (h : n ≠ 0) :
    s.changeFocus n = { s with settings := { s.settings with focusInterval := n } } := if_neg h

/-- FOCUS_INTERVAL 0 clears every channel's focus count (R118). -/
theorem State.changeFocus_zero_chan (ch : ChanId) : (s.changeFocus 0).chan ch =
    { s.chan ch with patrol := { (s.chan ch).patrol with focusCount := 0 } } :=
  State.chan_modAllChans _ ch _

theorem setAlertMaskReply_eq (v : BitVec 32) : setAlertMaskReply v s =
    { state := { s with settings := { s.settings with alertMask := v.setWidth 12 } }
      result := if v.toNat < 4096 then .ok else .clamped
      payload := settingReadout 0x30 (v.setWidth 12 : BitVec 12).toNat, selects := [] } := by
  have hkept : (v.setWidth 12 : BitVec 12).toNat = v.toNat ↔ v.toNat < 4096 := by
    rw [BitVec.toNat_setWidth]
    omega
  unfold setAlertMaskReply
  rw [storedReply_eq]
  simp only [hkept]
  rfl

end

/-- Settles O18: each of the three settings by what its owner does at the change. -/
theorem timeoutFocusAndMaskSettings : Obligations.TimeoutFocusAndMaskSettings := by
  intro s e n v hready
  refine ⟨fun hn hrun => ?running, fun hn hne r hr hdue => ?expired, fun hn hne => ?focus, ?focusZero, ?mask⟩
  case running =>
    refine State.answer_plain hready ?_
    have hclamp : clampTo 100 100000 v.toNat = n := hn.symm
    rw [setCadenceTimeoutReply, hclamp, State.changeTimeout_running hrun, storedReply_eq]
    rfl
  case expired =>
    have hclamp : clampTo 100 100000 v.toNat = n := hn.symm
    have hreply : setCadenceTimeoutReply v s =
        storedReply (s.modSettings (fun c => { c with cadenceTimeout := n })).expire 0x23 v.toNat n := by
      rw [setCadenceTimeoutReply, hclamp, State.changeTimeout_expired hne hr hdue]
    obtain ⟨hframe, hsource, href, hsettings, -, hlost⟩ :=
      (s.modSettings (fun c => { c with cadenceTimeout := n })).expire_spec
    generalize (s.modSettings (fun c => { c with cadenceTimeout := n })).expire = u at *
    exact ⟨_, State.answer_plain hready (hreply.trans (storedReply_eq _ _ _ _)), hframe, hsource, href, hsettings,
      hlost⟩
  case focus =>
    refine State.answer_plain hready ?_
    have hclamp : clampTo 0 64 v.toNat = n := by rw [hn, clampTo, Nat.zero_max]
    rw [setFocusIntervalReply, hclamp, State.changeFocus_ne_zero hne, storedReply_eq]
    rfl
  case focusZero =>
    exact ⟨_, State.answer_plain (f := setFocusIntervalReply 0) (t := s.changeFocus 0) hready rfl, rfl,
      State.changeFocus_zero_chan⟩
  case mask => exact State.answer_plain hready (setAlertMaskReply_eq v)

end Sys2Proof.Machine
end

section
/-! SUPPORT. The walk over lines that are not patrolled, the finish of a patrol read, and PATROL_START and PATROL_HALT (R102
to R108). -/

namespace Sys2Proof.Machine

/-! ### Lines that are not patrolled -/

theorem MemClass.patrolled_eq_false_iff (c : MemClass) : c.patrolled = false ↔ c = .unscrubbed := by
  cases c <;> decide

theorem MemClass.patrolled_iff (c : MemClass) : c.patrolled = true ↔ c ≠ .unscrubbed := by
  cases c <;> decide

/-- With no patrolled line from `start` up there is none to come to (R67, R105). -/
theorem nextPatrolled_eq_none {ws : Vector Window 8} {ch : ChanId} {visible start : Nat}
    (h : ∀ k, start ≤ k → k < visible → classIn ws ch k = .unscrubbed) : nextPatrolled ws ch visible start = none :=
  leastFrom_eq_none fun k h1 h2 => (MemClass.patrolled_eq_false_iff _).mpr (h k h1 h2)

section
variable {s : State} {ch : ChanId}

/-- An engine comes to the first patrolled line from a line up (R105). -/
theorem State.comeTo_patrolled {n l : Nat} (h1 : n ≤ l) (h2 : l < (s.chan ch).visible)
    (h3 : s.classOf ch l ≠ .unscrubbed) (h4 : ∀ k, n ≤ k → k < l → s.classOf ch k = .unscrubbed) :
    s.comeTo ch n = s.modChan ch (fun c => c.modPatrol (fun p => { p with position := l })) :=
  State.comeTo_some (nextPatrolled_eq_some h1 h2 h3 h4)

/-- With no patrolled line from a line up the pass ends (R105, R108). -/
theorem State.comeTo_unpatrolled {n : Nat} (h : ∀ k, n ≤ k → k < (s.chan ch).visible → s.classOf ch k = .unscrubbed) :
    s.comeTo ch n = s.endPass ch := State.comeTo_none (nextPatrolled_eq_none h)

/-! ### The finish of a read (R104, R107) -/

theorem Channel.canFinish_of {c : Channel} {r : PatrolRead} (hdec : r.decoded = true) (hheld : c.patrol.held = [])
    (howed : ∀ o ∈ c.owed, o.owner ≠ .patrol) : c.canFinish r = true := by
  simpa [Channel.canFinish, hdec, hheld] using howed

theorem State.readGone_visible (s : State) (ch : ChanId) : ((s.readGone ch).chan ch).visible = (s.chan ch).visible := by
  rw [State.readGone_chan]
  rfl

/-- A further change of the engine once its current read has gone. -/
theorem State.readGone_modPatrol (s : State) (ch : ChanId) (g : PatrolEngine → PatrolEngine) :
    (s.readGone ch).modChan ch (fun c => c.modPatrol g) = s.modChan ch (fun c =>
      { c with patrol := g { c.patrol with current := none } }) := State.modChan_modChan s ch _ _

theorem State.haltFinish_lt (h : (s.chan ch).patrol.position + 1 < (s.chan ch).visible) :
    (s.readGone ch).haltFinish ch = s.modChan ch (fun c => { c with
      patrol := { c.patrol with current := none, state := .idle, position := c.patrol.position + 1 } }) := by
  have hlt : ((s.readGone ch).chan ch).patrol.position + 1 < ((s.readGone ch).chan ch).visible := by
    rw [State.readGone_visible, State.readGone_chan]
    exact h
  unfold State.haltFinish
  rw [if_pos hlt]
  exact s.readGone_modPatrol ch _

theorem State.haltFinish_last (h : (s.chan ch).visible ≤ (s.chan ch).patrol.position + 1) :
    (s.readGone ch).haltFinish ch = (s.readGone ch).endPass ch := by
  have hlast : ¬ ((s.readGone ch).chan ch).patrol.position + 1 < ((s.readGone ch).chan ch).visible := by
    rw [State.readGone_visible, State.readGone_chan]
    exact Nat.not_lt.mpr h
  unfold State.haltFinish
  rw [if_neg hlast]

end

/-- Settles O50: by the engine's state and the read's kind, and by what lies beyond its line. -/
theorem patrolReadsFinish : Obligations.PatrolReadsFinish := by
  intro s ch r hcur hdec hheld howed
  have hfinish := execPatrolReadFinish_eq hcur (Channel.canFinish_of hdec hheld howed)
  rw [exec_patrolReadFinish, hfinish]
  refine ⟨fun hst hk => ?focus, fun l hst hk hpos hvis hcls hgap => ?next, fun hst hk hgap => ?passEnd,
    fun hst h => ?halted, fun hst hk hreset hlt => ?further, fun hst hk hreset hle => ?last⟩
  case focus =>
    simp only [hst, hk]
    rfl
  case next =>
    have hcome := State.comeTo_patrolled (s := s.readGone ch) (n := (s.chan ch).patrol.position + 1) (l := l) hpos
      (by rw [State.readGone_visible]; exact hvis) hcls fun k h => hgap k h
    simp only [hst, hk, hcome]
    exact congrArg _ (s.readGone_modPatrol ch _)
  case passEnd =>
    have hcome := State.comeTo_unpatrolled (s := s.readGone ch) (ch := ch) (n := (s.chan ch).patrol.position + 1)
      fun k h1 h2 => hgap k h1 (State.readGone_visible s ch ▸ h2)
    simp only [hst, hk, hcome]
    rfl
  case halted =>
    have hidle := s.readGone_modPatrol ch (fun p => { p with state := .idle })
    cases hk : r.kind with
    | focus =>
      simp only [hst, hidle]
    | ordinary =>
      have hreset := h.resolve_left (by rw [hk]; decide)
      simp only [hst, hreset, if_true, hidle]
  case further => simp only [hst, hk, hreset, Bool.false_eq_true, if_false, State.haltFinish_lt hlt]
  case last =>
    simp only [hst, hk, hreset, Bool.false_eq_true, if_false, State.haltFinish_last hle]
    rfl

/-! ### PATROL_START (R102, R105) -/

theorem modeArg_of_two_le {b : Byte} (h : 2 ≤ b.toNat) : modeArg b = none := by
  unfold modeArg
  split
  · omega
  · omega
  · rfl

section
variable {s : State} {ch : ChanId} {mode : PatrolMode} {given : Bool} {start : BitVec 32}

theorem startArg_byte : startArg (yesNoByte given) start = some (if given then some start.toNat else none) := by
  rw [startArg, yesNoArg_byte]
  rfl

/-- PATROL_START once its codes have been read: its checks in order, then its effect (R102). -/
theorem patrolStartReply_codes :
    patrolStartReply (BitVec.ofNat 8 ch.val) mode.byte (yesNoByte given) start s =
      if (s.chan ch).state ≠ .online then refuse s .notReady
      else if (s.chan ch).patrol.state = .running ∨ (s.chan ch).patrol.state = .halting then refuse s .busy
      else if given = true ∧ (s.chan ch).visible ≤ start.toNat then refuse s .range
      else patrolReply (s.startPatrol ch mode (if given then some start.toNat else none)) ch .accepted := by
  have hbeyond : (s.chan ch).beyond (if given then some start.toNat else none) = true ↔
      given = true ∧ (s.chan ch).visible ≤ start.toNat := by
    cases given <;> simp [Channel.beyond]
  simp only [patrolStartReply, channelArg_ofNat, modeArg_byte, startArg_byte, hbeyond]

theorem patrolStartReply_badCode {b m flag : Byte} (h : 4 ≤ b.toNat ∨ 2 ≤ m.toNat ∨ 2 ≤ flag.toNat) :
    patrolStartReply b m flag start s = refuse s .range := by
  unfold patrolStartReply
  split
  · next c p st hc hm hs =>
    rcases h with h | h | h
    · rw [channelArg_of_four_le h] at hc; cases hc
    · rw [modeArg_of_two_le h] at hm; cases hm
    · rw [startArg, yesNoArg_of_two_le h] at hs; cases hs
  · rfl

/-- An accepted PATROL_START: the engine as it begins to run, before it comes to its first line. -/
def State.patrolBegun (s : State) (ch : ChanId) (mode : PatrolMode) (line : Nat) : State :=
  s.modChan ch (fun c => { c with
    patrol := { c.patrol with state := .running, mode := mode, position := line, startWait := false } })

theorem State.startPatrol_eq : s.startPatrol ch mode (if given then some start.toNat else none) =
    (s.patrolBegun ch mode (if given then start.toNat else (s.chan ch).patrol.position)).comeTo ch
      (if given then start.toNat else (s.chan ch).patrol.position) := by
  cases given <;> rfl

theorem State.patrolBegun_visible (n : Nat) :
    ((s.patrolBegun ch mode n).chan ch).visible = (s.chan ch).visible := by
  rw [State.patrolBegun, State.chan_modChan_same]
  rfl

section
variable (hst : (s.chan ch).state = .online) (hrest : (s.chan ch).patrol.state = .idle ∨ (s.chan ch).patrol.state = .done)
include hst hrest

theorem patrolStartReply_resting :
    patrolStartReply (BitVec.ofNat 8 ch.val) mode.byte (yesNoByte given) start s =
      if given = true ∧ (s.chan ch).visible ≤ start.toNat then refuse s .range
      else patrolReply (s.startPatrol ch mode (if given then some start.toNat else none)) ch .accepted := by
  have hnot : ¬ ((s.chan ch).patrol.state = .running ∨ (s.chan ch).patrol.state = .halting) := by
    rcases hrest with h | h <;> rw [h] <;> decide
  rw [patrolStartReply_codes, if_neg (not_not.mpr hst), if_neg hnot]

end

end

/-- PATROL_HALT of a channel, by the engine's state and current read (R103). -/
theorem exec_patrolHalt_ready {s : State} (hready : s.LinkReady) (e : Nat) (ch : ChanId) :
    exec (.patrolHalt e (BitVec.ofNat 8 ch.val)) s =
      .next ((s.modChan ch (fun d => d.modPatrol PatrolEngine.halt)).withAnswer s e 0x44 .ok
        (patrolReadout (s.chan ch).patrol.halt)) := by
  rw [exec_patrolHalt, execPatrolHalt]
  refine State.answer_plain hready ?_
  rw [onChannel_ofNat, patrolReply, State.chan_modChan_same]
  rfl

/-- Settles O33: PATROL_START by its checks and the line it comes to, the codes it refuses, and PATROL_HALT. -/
theorem patrolStartAndHalt : Obligations.PatrolStartAndHalt := by
  intro s e ch hready
  refine ⟨fun mode given start n hn => ⟨fun hst => ?notReady, fun hst hbusy => ?busy, fun hst hrest =>
    ⟨fun hgiven hle => ?beyond, fun l hnl hvis hcls hgap => ?stands, fun u hin hgap hu => ?passEnd⟩⟩,
    fun b m flag start h => State.answer_refuse hready (patrolStartReply_badCode h), ?halt⟩
  case notReady => exact State.answer_refuse hready (patrolStartReply_codes.trans (if_pos hst))
  case busy =>
    exact State.answer_refuse hready (patrolStartReply_codes.trans ((if_neg (not_not.mpr hst)).trans (if_pos hbusy)))
  case beyond =>
    exact State.answer_refuse hready ((patrolStartReply_resting hst hrest).trans (if_pos ⟨hgiven, hle⟩))
  case stands =>
    have hin : ¬ (given = true ∧ (s.chan ch).visible ≤ start.toNat) := by
      rintro ⟨hgiven, hle⟩
      rw [hgiven, if_pos rfl] at hn
      omega
    have hcome : (s.patrolBegun ch mode n).comeTo ch n = s.modChan ch (fun c => { c with
        patrol := { c.patrol with state := .running, mode := mode, position := l, startWait := false } }) :=
      (State.comeTo_patrolled (s := s.patrolBegun ch mode n) hnl (by rw [State.patrolBegun_visible]; exact hvis) hcls hgap).trans
        (State.modChan_modChan s ch _ _)
    refine State.answer_plain hready ((patrolStartReply_resting hst hrest).trans ((if_neg hin).trans ?_))
    rw [State.startPatrol_eq, ← hn, hcome, patrolReply, State.chan_modChan_same]
    rfl
  case passEnd =>
    have hin' : ¬ (given = true ∧ (s.chan ch).visible ≤ start.toNat) :=
      fun ⟨hgiven, hle⟩ => absurd (hin hgiven) (Nat.not_lt.mpr hle)
    have hcome : (s.patrolBegun ch mode n).comeTo ch n = u :=
      (State.comeTo_unpatrolled (s := s.patrolBegun ch mode n) fun k h1 h2 =>
        hgap k h1 (by rwa [State.patrolBegun_visible] at h2)).trans hu.symm
    refine State.answer_plain hready ((patrolStartReply_resting hst hrest).trans ((if_neg hin').trans ?_))
    rw [State.startPatrol_eq, ← hn, hcome]
    rfl
  case halt =>
    have hreadout : patrolReadout (s.chan ch).patrol.halt =
        (if (s.chan ch).patrol.state = .running then (if (s.chan ch).patrol.current.isSome then 2#8 else 0#8)
          else (s.chan ch).patrol.state.code.setWidth 8) ++
        (BitVec.ofNat 32 (s.chan ch).patrol.position ++ 0#120) := by
      rw [PatrolEngine.halt_eq, patrolReadout]
      congr 1
      dsimp only
      split
      · split <;> rfl
      · rfl
    have hhalt : s.modChan ch (fun d => d.modPatrol PatrolEngine.halt) = s.modChan ch (fun c => { c with
        patrol := { c.patrol with
          state := if c.patrol.state = .running then (if c.patrol.current.isSome then .halting else .idle)
            else c.patrol.state
          startWait := if c.patrol.state = .running ∧ c.patrol.current = none then false
            else c.patrol.startWait } }) :=
      State.modChan_congr (by rw [Channel.modPatrol, PatrolEngine.halt_eq])
    rw [exec_patrolHalt_ready hready, hreadout, hhalt]

end Sys2Proof.Machine
end

section
/-! SUPPORT. The issue steps of a Patrol Engine: the line a focus read takes, and the line an ordinary read takes past
RETIRED and SPARING records (R106, R119). -/

namespace Sys2Proof.Machine

/-! ### Focus reads (R119) -/

theorem State.mem_focusLines_iff {s : State} {ch : ChanId} {l : Nat} : l ∈ s.focusLines ch ↔ s.FocusCandidate ch l := by
  unfold State.focusLines State.FocusCandidate
  simp only [List.mem_map, List.mem_filter, Bool.and_eq_true, decide_eq_true_eq, MemClass.patrolled_iff]
  constructor
  · rintro ⟨r, ⟨hr, ⟨rfl, hhot⟩, hcls⟩, rfl⟩
    exact ⟨r, hr, rfl, hhot, hcls⟩
  · rintro ⟨r, hr, hk, hhot, hcls⟩
    have hch : r.key.channel = ch := by rw [hk]
    have hline : r.key.line = l := by rw [hk]
    exact ⟨r, ⟨hr, ⟨hch, hhot⟩, by rw [hch, hline]; exact hcls⟩, hline⟩

/-- The line of the next focus read: the lowest above the cursor, or the lowest of all where none lies above it (R119). -/
theorem focusPick_eq_some_iff {cursor : Option Nat} {lines : List Nat} {l : Nat} :
    focusPick cursor lines = some l ↔ l ∈ lines ∧
      ((AboveCursor cursor l ∧ ∀ k ∈ lines, AboveCursor cursor k → l ≤ k) ∨
        ((∀ k ∈ lines, ¬ AboveCursor cursor k) ∧ ∀ k ∈ lines, l ≤ k)) := by
  cases cursor with
  | none =>
    have hall : ∀ k, AboveCursor none k := fun _ _ h => by cases h
    have hpick : focusPick none lines = lines.min? := rfl
    rw [hpick, List.min?_eq_some_iff]
    exact and_congr_right fun hl => ⟨fun h => .inl ⟨hall l, fun k hk _ => h k hk⟩,
      fun h => h.elim (fun h k hk => h.2 k hk (hall k)) (fun h => absurd (hall l) (h.1 l hl))⟩
  | some c =>
    have habove : ∀ k, AboveCursor (some c) k ↔ c < k := fun k => by simp [AboveCursor]
    have hmem : ∀ k, k ∈ lines.filter (fun l => decide (c < l)) ↔ k ∈ lines ∧ c < k := fun k => by simp
    simp only [habove]
    unfold focusPick
    dsimp only
    split
    · next m hm =>
      obtain ⟨hm1, hm2⟩ := List.min?_eq_some_iff.mp hm
      obtain ⟨hml, hcm⟩ := (hmem m).mp hm1
      have hleast : ∀ k ∈ lines, c < k → m ≤ k := fun k hk hck => hm2 k ((hmem k).mpr ⟨hk, hck⟩)
      rw [Option.some.injEq]
      constructor
      · rintro rfl
        exact ⟨hml, .inl ⟨hcm, hleast⟩⟩
      · rintro ⟨hl, ⟨hcl, h⟩ | ⟨hno, -⟩⟩
        · exact le_antisymm (hleast l hl hcl) (h m hml hcm)
        · exact absurd hcm (hno m hml)
    · next hnone =>
      have hno : ∀ k ∈ lines, ¬ c < k := fun k hk hck => by
        rw [List.min?_eq_none_iff] at hnone
        exact List.not_mem_nil (hnone ▸ (hmem k).mpr ⟨hk, hck⟩)
      rw [List.min?_eq_some_iff]
      exact and_congr_right fun hl => ⟨fun h => .inr ⟨hno, h⟩,
        fun h => h.elim (fun h => absurd h.1 (hno l hl)) (fun h => h.2)⟩

/-! ### The line of an ordinary read (R106) -/

section
variable {ws : Vector Window 8} {t : List Record} {ch : ChanId} {visible start : Nat}

/-- A line is readable from here on only past an edge of a window or past a record of the channel. -/
theorem readable_edge {n : Nat} (h0 : 0 < n)
    (hn : ((classIn ws ch n).patrolled && !lineSkipped t ch n) = true)
    (hp : ((classIn ws ch (n - 1)).patrolled && !lineSkipped t ch (n - 1)) = false) :
    n ∈ classEdges ws ++ (t.filter (fun r => decide (r.key.channel = ch))).map (fun r => r.key.line + 1) := by
  obtain ⟨hcls, -⟩ := Bool.and_eq_true_iff.mp hn
  rw [List.mem_append]
  cases hprev : (classIn ws ch (n - 1)).patrolled with
  | false =>
    refine .inl (mem_classEdges (ch := ch) h0 fun e => ?_)
    rw [e, hprev] at hcls
    cases hcls
  | true =>
    right
    have hskip : lineSkipped t ch (n - 1) = true := by simpa [hprev] using hp
    unfold lineSkipped at hskip
    split at hskip
    · next r hr =>
      have hk : r.key = { channel := ch, line := n - 1 } := by simpa using List.find?_some hr
      refine List.mem_map.mpr ⟨r, List.mem_filter.mpr ⟨List.mem_of_find?_eq_some hr, ?_⟩, ?_⟩
      · rw [hk]; exact decide_eq_true rfl
      · rw [hk]; exact Nat.sub_add_cancel h0
    · cases hskip

theorem unreadable_iff {k : Nat} : ((classIn ws ch k).patrolled && !lineSkipped t ch k) = false ↔
    classIn ws ch k = .unscrubbed ∨ lineSkipped t ch k = true := by
  rw [Bool.and_eq_false_iff, MemClass.patrolled_eq_false_iff, Bool.not_eq_false']

theorem nextReadable_eq_some {l : Nat} (h1 : start ≤ l) (h2 : l < visible) (hcls : classIn ws ch l ≠ .unscrubbed)
    (hread : lineSkipped t ch l = false)
    (hgap : ∀ k, start ≤ k → k < l → classIn ws ch k = .unscrubbed ∨ lineSkipped t ch k = true) :
    nextReadable ws t ch visible start = some l :=
  leastFrom_eq_some (fun n hn => readable_edge (Nat.zero_lt_of_lt hn)) h1 h2
    (by rw [(MemClass.patrolled_iff _).mpr hcls, hread]; rfl) fun k hk1 hk2 => unreadable_iff.mpr (hgap k hk1 hk2)

theorem nextReadable_eq_none
    (hgap : ∀ k, start ≤ k → k < visible → classIn ws ch k = .unscrubbed ∨ lineSkipped t ch k = true) :
    nextReadable ws t ch visible start = none :=
  leastFrom_eq_none fun k hk1 hk2 => unreadable_iff.mpr (hgap k hk1 hk2)

end

section
variable {s : State} {ch : ChanId}

/-- An ordinary read takes the ready line, or the next readable one where its record makes the patrol skip it (R106). -/
theorem State.readTarget_eq_some {l : Nat}
    (hl : l = (s.chan ch).patrol.position ∨
      ((s.chan ch).patrol.position < l ∧ l < (s.chan ch).visible ∧ s.classOf ch l ≠ .unscrubbed ∧
        lineSkipped s.table ch (s.chan ch).patrol.position = true))
    (hread : lineSkipped s.table ch l = false)
    (hgap : ∀ k : Nat, (s.chan ch).patrol.position < k → k < l →
      s.classOf ch k = .unscrubbed ∨ lineSkipped s.table ch k = true) : s.readTarget ch = some l := by
  unfold State.readTarget
  dsimp only
  rcases hl with rfl | ⟨hlt, hvis, hcls, hskip⟩
  · rw [if_neg (by rw [hread]; decide)]
  · rw [if_pos hskip]
    exact nextReadable_eq_some hlt hvis hcls hread fun k h => hgap k h

/-- Skips that reach the end of the channel leave no line to read (R106). -/
theorem State.readTarget_eq_none (hskip : lineSkipped s.table ch (s.chan ch).patrol.position = true)
    (hgap : ∀ k : Nat, (s.chan ch).patrol.position < k → k < (s.chan ch).visible →
      s.classOf ch k = .unscrubbed ∨ lineSkipped s.table ch k = true) : s.readTarget ch = none := by
  unfold State.readTarget
  dsimp only
  rw [if_pos hskip]
  exact nextReadable_eq_none fun k h => hgap k h

theorem State.ordinaryStep_reads {l : Nat} {loc : Loc} (ht : s.readTarget ch = some l) (hloc : s.patrolLoc ch l = loc)
    (hdram : (s.chan ch).inDram loc = true) :
    s.ordinaryStep ch = .next (s.modChan ch (fun c => { c with
      demandCount := 0
      budget := c.budget - 1
      flights := c.flights ++ [
        { kind := .patrol, line := l, loc := loc, words := c.lineAt ch loc, moved := false }]
      patrol := { c.patrol with
        position := l
        focusCount := countFocus s.settings.focusInterval c.patrol.focusCount
        current := some
          { kind := .ordinary, line := l, loc := loc, marks := 0, decoded := false, acrossReset := false } } })) := by
  unfold State.ordinaryStep
  rw [ht]
  dsimp only
  rw [hloc, State.atLines_next (List.forall_mem_singleton.mpr hdram)]
  rfl

theorem State.ordinaryStep_ends (ht : s.readTarget ch = none) : s.ordinaryStep ch = .next (s.endPass ch) := by
  unfold State.ordinaryStep
  rw [ht]

/-! ### The issue step -/

theorem State.focusDue_iff : s.focusDue ch = true ↔
    s.settings.focusInterval ≠ 0 ∧ s.settings.focusInterval ≤ (s.chan ch).patrol.focusCount := by
  simp [State.focusDue]

/-- A focus read that is due and has a line to take (R119). -/
theorem execPatrolIssueStep_focus (hop : s.nextOp ch = some .patrolStep) (hdue : s.focusDue ch = true) {l : Nat}
    (hpick : focusPick (s.chan ch).patrol.focusCursor (s.focusLines ch) = some l)
    (hdram : (s.chan ch).inDram (.line l) = true) :
    execPatrolIssueStep ch s = .next (s.modChan ch (fun c =>
      (c.modPatrol (fun p => { p with focusCursor := some l, focusCount := 0 })).issuePatrol ch .focus l (.line l))) := by
  unfold execPatrolIssueStep
  simp only [hop, hdue, if_true, hpick]
  exact State.atLines_next (List.forall_mem_singleton.mpr hdram) _

/-- The ordinary part of an issue step begins with the focus count as it stands, or at 0 where a focus read was due and found
no line to take (R106, R119). -/
theorem execPatrolIssueStep_ordinary (hop : s.nextOp ch = some .patrolStep) {n : Nat}
    (h : s.settings.focusInterval = 0 ∨ (s.chan ch).patrol.focusCount < s.settings.focusInterval ∨
      focusPick (s.chan ch).patrol.focusCursor (s.focusLines ch) = none)
    (hn : n = (if s.settings.focusInterval = 0 then (s.chan ch).patrol.focusCount
      else if (s.chan ch).patrol.focusCount < s.settings.focusInterval then (s.chan ch).patrol.focusCount else 0)) :
    execPatrolIssueStep ch s =
      (s.modChan ch (fun c => { c with patrol := { c.patrol with focusCount := n } })).ordinaryStep ch := by
  unfold execPatrolIssueStep
  rw [hop]
  dsimp only
  by_cases hdue : s.focusDue ch = true
  · obtain ⟨hne, hle⟩ := State.focusDue_iff.mp hdue
    have hpick := (h.resolve_left hne).resolve_left (Nat.not_lt.mpr hle)
    rw [if_neg hne, if_neg (Nat.not_lt.mpr hle)] at hn
    rw [if_pos hdue, hpick, hn]
    rfl
  · have hsame : n = (s.chan ch).patrol.focusCount := by
      rw [State.focusDue_iff, not_and_or, not_not, Nat.not_le] at hdue
      rcases hdue with h0 | hlt
      · rw [hn, if_pos h0]
      · rw [hn, if_pos hlt, ite_self]
    rw [if_neg hdue, State.modChan_eq_self (by rw [hsame])]

/-- The focus count that an ordinary read leaves (R106, R119). -/
theorem countFocus_begun (i c : Nat) :
    countFocus i (if i = 0 then c else if c < i then c else 0) =
      if i = 0 then c else if c < i then min 64 (c + 1) else 1 := by
  unfold countFocus
  split_ifs <;> rfl

end

/-- Settles O48: the line of a focus read, then the focus read, the ordinary read and the pass end of an issue step. -/
theorem patrolIssueSteps : Obligations.PatrolIssueSteps := by
  refine ⟨fun s ch l => ?pick, fun s ch hop => ⟨fun l hne hle hpick hdram => ?focus,
    fun l n loc hord hn hread hlt hgap hloc hdram => ?ordinary, fun n hord hn hskip hgap => ?passEnd⟩⟩
  case pick =>
    rw [focusPick_eq_some_iff]
    simp only [State.mem_focusLines_iff]
  case focus =>
    rw [exec_patrolIssueStep, execPatrolIssueStep_focus hop (State.focusDue_iff.mpr ⟨hne, hle⟩) hpick hdram]
    rfl
  case ordinary =>
    rw [← countFocus_begun] at hn
    have hchan := State.chan_modChan_same s ch (fun c => { c with patrol := { c.patrol with
      focusCount := if s.settings.focusInterval = 0 then (s.chan ch).patrol.focusCount
        else if (s.chan ch).patrol.focusCount < s.settings.focusInterval then (s.chan ch).patrol.focusCount
        else 0 } })
    rw [exec_patrolIssueStep, execPatrolIssueStep_ordinary hop hord rfl, State.ordinaryStep_reads (l := l) (loc := loc)]
    · rw [State.modChan_modChan]
      refine congrArg _ (State.modChan_congr ?_)
      rw [hn]
      rfl
    · refine State.readTarget_eq_some ?_ hlt ?_ <;> rw [hchan]
      · exact hread
      · exact hgap
    · rw [hloc]
      rfl
    · rw [hchan]
      exact hdram
  case passEnd =>
    have hchan := State.chan_modChan_same s ch (fun c => { c with patrol := { c.patrol with focusCount := n } })
    rw [exec_patrolIssueStep, execPatrolIssueStep_ordinary hop hord hn, State.ordinaryStep_ends]
    refine State.readTarget_eq_none ?_ ?_ <;> rw [hchan]
    · exact hskip
    · exact hgap

end Sys2Proof.Machine
end

section
/-! SUPPORT. What a change of one channel leaves of its numbers and of its budget (R73, R75, R97, R99, R133, R172), and with the
frame outside the channels what that leaves sound of the Cadence Unit, the pending phase and every number (R124 to R126, R132,
R194). -/

namespace Sys2Proof.Machine

/-! ### What a change of one channel keeps -/

/-- A channel's numbers but its consecutive-demand count. -/
def Channel.numbers (c : Channel) : Nat × Nat × Nat × Nat × Nat × Nat × Nat :=
  (c.physLines, c.fillProgress, c.budget, c.patrol.pass, c.patrol.focusCount, c.ceCount, c.ueCount)

/-- A change of a channel that gives it no budget and after which its numbers are in range if they were. -/
structure Channel.PaceKept (c d : Channel) : Prop where
  budget  : d.budget ≤ c.budget
  inRange : c.InRange → d.InRange

namespace Channel.PaceKept
variable {c d e : Channel}

theorem trans (h : c.PaceKept d) (k : d.PaceKept e) : c.PaceKept e :=
  ⟨k.budget.trans h.budget, fun x => k.inRange (h.inRange x)⟩

/-- A change of the consecutive-demand count alone. -/
theorem of_count (h : d.numbers = c.numbers) (hn : c.demandCount ≤ 8 → d.demandCount ≤ 8) : c.PaceKept d := by
  simp only [Channel.numbers, Prod.mk.injEq] at h
  obtain ⟨hlines, hfill, hbudget, hpass, hfocus, hce, hue⟩ := h
  refine ⟨hbudget.le, fun ⟨klines, kfill, kcount, kbudget, kpass, kfocus, kce, kue⟩ => ?_⟩
  unfold Channel.InRange
  rw [hlines, hfill, hbudget, hpass, hfocus, hce, hue]
  exact ⟨klines, kfill, hn kcount, kbudget, kpass, kfocus, kce, kue⟩

/-- A change of no number. -/
theorem of_eq (h : d.numbers = c.numbers) (hn : d.demandCount = c.demandCount) : c.PaceKept d :=
  .of_count h fun k => hn ▸ k

theorem refl (c : Channel) : c.PaceKept c := .of_eq rfl rfl

/-- A change that brings the consecutive-demand count to 0. -/
theorem of_zero (h : d.numbers = c.numbers) (hn : d.demandCount = 0) : c.PaceKept d :=
  .of_count h fun _ => hn ▸ Nat.zero_le 8

/-- A change that drops entries of the Write-back Queue (R97). -/
theorem of_drops {n : Nat} {p : WbEntry → Bool} (h : d.numbers = c.numbers) (hn : n ≤ c.demandCount)
    (hd : c.Drops d n p) : c.PaceKept d := by
  refine .of_count h fun k => ?_
  obtain ⟨-, hnone, hsome⟩ := hd
  by_cases hany : ∃ e ∈ c.wbq, p e = true
  · obtain ⟨-, hcount⟩ := hsome hany
    rw [hcount]
    split
    · exact Nat.zero_le 8
    · exact hn.trans k
  · obtain ⟨-, -, hcount⟩ := hnone fun e he => Bool.eq_false_iff.mpr fun hp => hany ⟨e, he, hp⟩
    exact hcount ▸ hn.trans k

end Channel.PaceKept

section
variable (c : Channel)

theorem Channel.paceKept_setSlot (i : SlotId) (x : SlotState) : c.PaceKept (c.setSlot i x) := by
  obtain ⟨hspec, hdrops⟩ := c.setSlot_spec i x
  have hnumbers : (c.setSlot i x).numbers = c.numbers := by rw [hspec]; rfl
  by_cases hx : x = .allocated
  · subst hx
    exact .of_eq hnumbers rfl
  · exact .of_drops hnumbers le_rfl (hdrops hx)

/-- A migration starts, or takes another target slot, on a slot that becomes ALLOCATED (R149, R160). -/
theorem Channel.paceKept_allocate (i : SlotId) (m : Migration) :
    c.PaceKept { c.setSlot i .allocated with migration := some m } := .of_eq rfl rfl

theorem Channel.paceKept_reoffer : c.PaceKept c.reoffer := .of_eq rfl rfl

theorem Channel.paceKept_setWbq (q : List WbEntry) : c.PaceKept (c.setWbq q) := by
  refine .of_count rfl fun h => ?_
  show (if q.isEmpty then 0 else c.demandCount) ≤ 8
  split
  · exact Nat.zero_le 8
  · exact h

theorem Channel.countDemand_le (c : Channel) : c.countDemand.demandCount ≤ 8 := by
  show (if c.wbq.isEmpty then 0 else min 8 (c.demandCount + 1)) ≤ 8
  split
  · exact Nat.zero_le 8
  · exact min_le_left 8 _

/-- The issue of a demand or merge read (R81, R97). -/
theorem Channel.paceKept_demandIssue (ch : ChanId) (k : FlightKind) (n m : Nat) (l : Loc) (x : Stage) :
    c.PaceKept (((c.countDemand).issueRead ch k n l).setStage m x) := .of_count rfl fun _ => c.countDemand_le

theorem Channel.paceKept_countMergeWrite (p : Probe) : c.PaceKept (c.countMergeWrite p) := by
  refine .of_count rfl fun h => ?_
  show (if p.count = 7 then c.demandCount else c.countDemand.demandCount) ≤ 8
  split
  · exact h
  · exact c.countDemand_le

/-- The issue of a maintenance read spends a unit of budget (R98). -/
theorem Channel.paceKept_spent : c.PaceKept c.clearDemand.spend := by
  refine ⟨Nat.sub_le _ _, fun ⟨hlines, hfill, _, hbudget, hrest⟩ => ?_⟩
  exact ⟨hlines, hfill, Nat.zero_le 8, (Nat.sub_le _ _).trans hbudget, hrest⟩

/-- The issue of a migration read. -/
theorem Channel.paceKept_migrationIssue (ch : ChanId) (k : FlightKind) (n : Nat) (l : Loc) (m : Option Migration) :
    c.PaceKept { (c.clearDemand.spend).issueRead ch k n l with migration := m } :=
  c.paceKept_spent.trans (.of_eq rfl rfl)

/-- The issue of a patrol or focus read, with the engine's focus count changed before (R106, R119). -/
theorem Channel.paceKept_patrolIssue {f : PatrolEngine → PatrolEngine} (hpass : (f c.patrol).pass = c.patrol.pass)
    (hfocus : c.patrol.focusCount ≤ 64 → (f c.patrol).focusCount ≤ 64) (ch : ChanId) (k : PatrolKind) (n : Nat)
    (l : Loc) : c.PaceKept ((c.modPatrol f).issuePatrol ch k n l) := by
  refine ⟨Nat.sub_le _ _, fun ⟨hlines, hfill, _, hbudget, kpass, kfocus, hcounts⟩ => ?_⟩
  exact ⟨hlines, hfill, Nat.zero_le 8, (Nat.sub_le _ _).trans hbudget, hpass.le.trans kpass, hfocus kfocus, hcounts⟩

/-- A change of the Patrol Engine that takes neither its pass counter nor its focus count out of range (R99). -/
theorem Channel.paceKept_modPatrol {f : PatrolEngine → PatrolEngine}
    (hpass : c.patrol.pass ≤ 65535 → (f c.patrol).pass ≤ 65535)
    (hfocus : c.patrol.focusCount ≤ 64 → (f c.patrol).focusCount ≤ 64) : c.PaceKept (c.modPatrol f) :=
  ⟨le_rfl, fun ⟨hlines, hfill, hcount, hbudget, kpass, kfocus, hcounts⟩ =>
    ⟨hlines, hfill, hcount, hbudget, hpass kpass, hfocus kfocus, hcounts⟩⟩

/-- A pass end counts the pass, and returns to 0 after 65,535 (R108). -/
theorem Channel.paceKept_endPass : c.PaceKept (c.modPatrol PatrolEngine.endPass) :=
  c.paceKept_modPatrol (fun _ => Nat.le_of_lt_succ (Nat.mod_lt _ (by decide))) id

theorem Channel.paceKept_demandDecoded (q : QEntry) (f : Flight) (wb : Bool) (reps : Vector Report 8) :
    c.PaceKept (c.popFlight.demandDecoded q f wb reps) := by
  rw [Channel.demandDecoded_spec]
  exact .of_eq rfl rfl

theorem Channel.paceKept_patrolDecoded (r : PatrolRead) (f : Flight) (b : Bool) (reps : Vector Report 8) :
    c.PaceKept (c.popFlight.patrolDecoded r f b reps) := by
  rw [Channel.patrolDecoded_spec]
  exact .of_eq rfl rfl

/-- A fill write's line lies below PHYS_LINES, and so the progress stays within it (R75). -/
theorem Channel.paceKept_fillStep (hlt : c.fillProgress < c.physLines) : c.PaceKept c.fillStep :=
  ⟨le_rfl, fun ⟨hlines, _, _, hrest⟩ => ⟨hlines, hlt, Nat.zero_le 8, hrest⟩⟩

/-- A value of PHYS_LINES as it is stored (R73). -/
theorem storedPhysLines_range (v : Nat) :
    storedPhysLines v = 0 ∨ 1024 ≤ storedPhysLines v ∧ storedPhysLines v ≤ 268435456 := by
  unfold storedPhysLines clampTo
  split <;> omega

theorem Channel.paceKept_changePhysLines (v : Nat) : c.PaceKept (c.changePhysLines (storedPhysLines v)) := by
  rw [Channel.changePhysLines_eq]
  exact ⟨le_rfl, fun ⟨_, _, _, hbudget, _, _, hcounts⟩ => ⟨storedPhysLines_range v, Nat.zero_le _, Nat.zero_le 8, hbudget,
    Nat.zero_le _, Nat.zero_le 64, hcounts⟩⟩

theorem Channel.paceKept_softReset : c.PaceKept c.softReset :=
  ⟨le_rfl, fun ⟨hlines, hfill, _, hbudget, _⟩ =>
    ⟨hlines, hfill, Nat.zero_le 8, hbudget, Nat.zero_le _, Nat.zero_le 64, Nat.zero_le _, Nat.zero_le _⟩⟩

theorem Channel.inRange_withBudget {n : Nat} (h : c.InRange) (hn : n ≤ 15) : (c.withBudget n).InRange := by
  obtain ⟨hlines, hfill, hcount, -, hrest⟩ := h
  exact ⟨hlines, hfill, hcount, hn, hrest⟩

theorem Channel.inRange_powerOn (d : List (Nat × Codeword)) {n : Nat} (hn : n ≤ 15) : (Channel.powerOn d n).InRange :=
  ⟨.inl rfl, le_rfl, Nat.zero_le 8, hn, Nat.zero_le _, Nat.zero_le 64, Nat.zero_le _, Nat.zero_le _⟩

end

/-! ### What a change of the state keeps -/

/-- What the invariants of the cadence, the phases and the numbers see of the state outside its channels. -/
def State.paceItems (s : State) : Cadence × Settings × Vector Policy 4 × Vector Profile 4 × Nat × Bool :=
  (s.cadence, s.settings, s.policies, s.profiles, s.linkErrors, s.resetAsserted)

/-- A change of the state after which the Cadence Unit, the pending phase and every number are sound if they were. -/
structure State.KeepsPace (s t : State) : Prop where
  cadence : s.CadenceSound → t.CadenceSound
  phase   : s.PhaseSound → t.PhaseSound
  numbers : s.NumbersSound → t.NumbersSound

namespace State.KeepsPace
variable {s t u : State} {ch : ChanId}

theorem refl (s : State) : s.KeepsPace s := ⟨id, id, id⟩

theorem trans (h : s.KeepsPace t) (k : t.KeepsPace u) : s.KeepsPace u :=
  ⟨fun x => k.cadence (h.cadence x), fun x => k.phase (h.phase x), fun x => k.numbers (h.numbers x)⟩

/-- Changes of channels that give no budget and keep their numbers, under items that stand as they are. -/
theorem of_chans (hp : t.paceItems = s.paceItems) (hc : ∀ c : ChanId, (s.chan c).PaceKept (t.chan c)) :
    s.KeepsPace t := by
  simp only [State.paceItems, Prod.mk.injEq] at hp
  obtain ⟨hcad, hset, hpol, hprof, hlink, hreset⟩ := hp
  refine ⟨fun h => ?cadence, fun h => ?phase, fun h => ?numbers⟩
  case cadence =>
    obtain ⟨hend, hindex, hslots, hcount, hclosed, hopen, hwatch, hsource⟩ := h
    unfold State.CadenceSound
    rw [hcad, hset, hreset]
    exact ⟨hend, hindex, hslots, hcount,
      fun k c => Nat.le_zero.mp (hclosed k c ▸ (hc c).budget), hopen, hwatch, hsource⟩
  case phase =>
    unfold State.PhaseSound
    rw [hcad]
    exact h
  case numbers =>
    obtain ⟨hsettings, hpolicies, hprofiles, herrors, hchans⟩ := h
    unfold State.NumbersSound State.policy State.profile
    rw [hset, hpol, hprof, hlink]
    exact ⟨hsettings, hpolicies, hprofiles, herrors, fun c => (hc c).inRange (hchans c)⟩

/-- A change that none of the three invariants sees. -/
theorem frame (h : s.KeepsPace t) (hp : u.paceItems = t.paceItems) (hc : u.chans = t.chans) : s.KeepsPace u := by
  refine h.trans (.of_chans hp fun c => ?_)
  have huc : u.chan c = t.chan c := by unfold State.chan; rw [hc]
  exact huc ▸ .refl _

theorem of_eq (hp : t.paceItems = s.paceItems) (hc : t.chans = s.chans) : s.KeepsPace t := (refl s).frame hp hc

/-- A change of one channel, the table and the causes. -/
theorem of_only (ho : s.OnlyChannel t ch) (hc : (s.chan ch).PaceKept (t.chan ch)) : s.KeepsPace t := by
  refine .of_chans ?_ fun c => ?_
  · unfold State.paceItems
    rw [ho.cadence_eq, ho.settings_eq, ho.policies_eq, ho.profiles_eq, ho.linkErrors_eq, ho.resetAsserted_eq]
  · by_cases e : c = ch
    · exact e ▸ hc
    · exact ho.2 c e ▸ .refl _

theorem modChan (h : s.KeepsPace t) {f : Channel → Channel} (hf : (t.chan ch).PaceKept (f (t.chan ch))) :
    s.KeepsPace (t.modChan ch f) :=
  h.trans (.of_only (State.onlyChannel_modChan t ch f) (by rwa [State.chan_modChan_same]))

theorem modAllChans (h : s.KeepsPace t) {f : Channel → Channel} (hf : ∀ c : Channel, c.PaceKept (f c)) :
    s.KeepsPace (t.modAllChans f) :=
  h.trans (.of_chans rfl fun c => by rw [State.chan_modAllChans]; exact hf _)

theorem raise (h : s.KeepsPace t) (k : Cause) : s.KeepsPace (t.raise k) := h.frame rfl rfl

theorem foldl {α : Type} {f : State → α → State} (hf : ∀ (x : State) (a : α), x.KeepsPace (f x a)) (l : List α)
    (h : s.KeepsPace t) : s.KeepsPace (l.foldl f t) := by
  induction l generalizing t with
  | nil => exact h
  | cons a l ih => exact ih (h.trans (hf t a))

/-- A link error count within its four bits (R186). -/
theorem setLinkErrors (h : s.KeepsPace t) {n : Nat} (hn : n ≤ 15) : s.KeepsPace { t with linkErrors := n } :=
  h.trans ⟨id, id, fun ⟨hsettings, hpolicies, hprofiles, _, hchans⟩ => ⟨hsettings, hpolicies, hprofiles, hn, hchans⟩⟩

end State.KeepsPace

end Sys2Proof.Machine
end

section
/-! SUPPORT. What every shared operation of the state leaves sound of the cadence, the phases and the numbers (R124 to R126,
R132, R194). -/

namespace Sys2Proof.Machine

section
variable (s : State) (ch : ChanId)

/-! ### Selections, deliveries and captures -/

theorem State.keepsPace_select : s.KeepsPace (s.select ch) := by
  obtain ⟨ho, -, hc, -⟩ := State.select_spec s ch
  exact .of_only ho (hc ▸ .of_eq rfl rfl)

theorem State.keepsPace_selectAll (l : List ChanId) : s.KeepsPace (s.selectAll l) :=
  State.KeepsPace.foldl State.keepsPace_select l (.refl s)

theorem State.keepsPace_deliver (n : Nat) (src : ReadSource) (reps : Vector Report 8) :
    s.KeepsPace (s.deliver ch n src reps) := by
  obtain ⟨ho, -, hc, -⟩ := State.deliver_spec s ch n src reps
  exact .of_only ho (hc ▸ .of_eq rfl rfl)

/-- Each count of one event stays at 65,535 or below (R172). -/
theorem State.keepsPace_captureOne (e : Capture) : s.KeepsPace (s.captureOne ch e) := by
  unfold State.captureOne
  split
  · exact (State.KeepsPace.refl s).modChan ⟨le_rfl, fun ⟨hlines, hfill, hcount, hbudget, hpass, hfocus, _, hue⟩ =>
      ⟨hlines, hfill, hcount, hbudget, hpass, hfocus, min_le_left _ _, hue⟩⟩
  · exact ((State.KeepsPace.refl s).modChan ⟨le_rfl, fun ⟨hlines, hfill, hcount, hbudget, hpass, hfocus, hce, _⟩ =>
      ⟨hlines, hfill, hcount, hbudget, hpass, hfocus, hce, min_le_left _ _⟩⟩).raise _

theorem State.keepsPace_captureRead (src : ReadSource) (n : Nat) (loc : Loc) (tag : Option Byte)
    (reps : Vector Report 8) : s.KeepsPace (s.captureRead ch src n loc tag reps) := by
  rw [State.captureRead_eq]
  exact State.KeepsPace.foldl (fun x e => x.keepsPace_captureOne ch e) _ (.refl s)

/-! ### The ends of a migration -/

theorem State.keepsPace_dropMigration (m : Migration) (b : Bool) : s.KeepsPace (s.dropMigration ch m b) :=
  .of_only (s.dropMigration_onlyChannel ch m b) (by rw [State.chan_dropMigration]; exact .of_eq rfl rfl)

theorem State.keepsPace_setSlot (i : SlotId) (x : SlotState) : s.KeepsPace (s.modChan ch (fun c => c.setSlot i x)) :=
  (State.KeepsPace.refl s).modChan (Channel.paceKept_setSlot _ i x)

theorem State.keepsPace_cancelMigration (b : Bool) : s.KeepsPace (s.cancelMigration ch b) := by
  unfold State.cancelMigration
  split
  · exact .refl s
  · next m _ => exact (s.keepsPace_dropMigration ch m b).trans (State.keepsPace_setSlot _ ch m.target .free)

theorem State.keepsPace_failMigration (m : Migration) : s.KeepsPace (s.failMigration ch m) :=
  ((s.keepsPace_dropMigration ch m true).raise .migrationFailed).trans (State.keepsPace_select _ ch)

theorem State.keepsPace_startMigration (r : Record) (i : SlotId) (b : Bool) : s.KeepsPace (s.startMigration r i b) := by
  have hrec : s.KeepsPace (s.modRec r.key.channel r.key.line (fun x => x.enterSparing i b)) := .of_eq rfl rfl
  exact hrec.modChan (Channel.paceKept_allocate _ i _)

theorem State.keepsPace_retryMigration (m : Migration) : s.KeepsPace (s.retryMigration ch m) := by
  unfold State.retryMigration
  split
  · next i _ =>
    have hrec : s.KeepsPace (s.modRec ch m.line (fun r => { r with targetSlot := some i })) := .of_eq rfl rfl
    exact hrec.modChan (Channel.paceKept_allocate _ i _)
  · obtain ⟨ho, -, -, hc⟩ := State.refuseSlots_spec s ch
    exact (State.KeepsPace.of_only ho (hc ▸ .of_eq rfl rfl)).trans (State.keepsPace_failMigration _ ch m)

theorem State.keepsPace_failVerify (m : Migration) : s.KeepsPace (s.failVerify ch m) := by
  have hfailed : s.KeepsPace (s.targetFailed ch m) := s.keepsPace_setSlot ch _ _
  rw [State.failVerify_eq]
  split
  · exact hfailed.trans (State.keepsPace_retryMigration _ ch m)
  · exact hfailed.trans (State.keepsPace_failMigration _ ch m)

theorem State.keepsPace_committed (m : Migration) : s.KeepsPace (s.committed ch m) := by
  have hrec : s.KeepsPace (s.modRec ch m.line Record.commit) := .of_eq rfl rfl
  have hidle : s.KeepsPace ((s.modRec ch m.line Record.commit).modChan ch (fun c => { c with migration := none })) :=
    hrec.modChan (.of_eq rfl rfl)
  unfold State.committed
  dsimp only
  split
  · exact hidle.trans (State.keepsPace_setSlot _ ch _ _)
  · exact hidle

theorem State.keepsPace_commitMigration (m : Migration) : s.KeepsPace (s.commitMigration ch m) := by
  rw [State.commitMigration_eq]
  exact ((s.keepsPace_committed ch m).raise .migrationDone).trans (State.keepsPace_select _ ch)

/-! ### The decodes -/

theorem State.keepsPace_demandDecode (q : QEntry) (f : Flight) (reps : Vector Report 8) :
    s.KeepsPace (s.demandDecode ch q f reps) := by
  have hcap := s.keepsPace_captureRead ch .demandRead q.req.line f.loc (some q.req.tag) reps
  have halerted : s.KeepsPace (s.demandAlerted ch q f reps) := by
    unfold State.demandAlerted
    split
    · exact hcap.raise .poisonRead
    · exact hcap
  rw [State.demandDecode_eq]
  exact (halerted.modChan (Channel.paceKept_demandDecoded _ q f _ reps)).trans (State.keepsPace_deliver _ ch _ _ _)

theorem State.keepsPace_mergeDecode (q : QEntry) (p : Probe) (data : LineData) (mask : BitVec 64) (f : Flight)
    (reps : Vector Report 8) : s.KeepsPace (s.mergeDecode ch q p data mask f reps) := by
  rw [State.mergeDecode_eq]
  exact ((s.keepsPace_captureRead ch .demandMerge _ _ _ reps).modChan (.of_eq rfl rfl)).trans
    (State.keepsPace_deliver _ ch _ _ _)

theorem State.keepsPace_patrolDecode (r : PatrolRead) (f : Flight) (reps : Vector Report 8) :
    s.KeepsPace (s.patrolDecode ch r f reps) :=
  ((s.keepsPace_captureRead ch _ _ _ _ reps).modChan (Channel.paceKept_patrolDecoded _ r f _ reps)).trans
    (State.keepsPace_deliver _ ch _ _ _)

theorem State.keepsPace_migrationReports (f : Flight) (reps : Vector Report 8) :
    s.KeepsPace (s.migrationReports ch f reps) :=
  ((s.keepsPace_captureRead ch _ _ _ _ reps).modChan (.of_eq rfl rfl)).trans (State.keepsPace_deliver _ ch _ _ _)

theorem State.keepsPace_copyDecode (m : Migration) (f : Flight) (reps : Vector Report 8) :
    s.KeepsPace (s.copyDecode ch m f reps) := by
  unfold State.copyDecode Channel.owe
  refine (s.keepsPace_migrationReports ch f reps).modChan ?_
  dsimp only
  split
  · exact .of_eq rfl rfl
  · split <;> exact .of_eq rfl rfl

theorem State.keepsPace_verifyDecode (m : Migration) (f : Flight) (reps : Vector Report 8) :
    s.KeepsPace (s.verifyDecode ch m f reps) := by
  unfold State.verifyDecode
  split
  · exact (s.keepsPace_migrationReports ch f reps).trans (State.keepsPace_commitMigration _ ch m)
  · exact (s.keepsPace_migrationReports ch f reps).trans (State.keepsPace_failVerify _ ch m)

/-! ### Writes -/

theorem State.keepsPace_issueWrite (n : Nat) (p : Probe) (plan : Vector CwWrite 8) (full : CwSet) :
    s.KeepsPace (s.issueWrite ch n p plan full) := by
  obtain ⟨ho, -, -, hdrops, hchan⟩ := State.issueWrite_spec s ch n p plan full _ rfl
  exact .of_only ho (.of_drops (by rw [hchan]; rfl) le_rfl hdrops)

theorem State.keepsPace_issuePoison (o : Owed) : s.KeepsPace (s.issuePoison ch o) := by
  obtain ⟨-, hdrops, hchan⟩ := State.issuePoison_spec s ch o _ rfl _ rfl
  exact .of_only (s.issuePoison_onlyChannel ch o).1 (.of_drops (by rw [hchan]; rfl) (Nat.zero_le _) hdrops)

theorem State.keepsPace_issueWriteBack (e : WbEntry) : s.KeepsPace (s.issueWriteBack ch e) := by
  have hqueue : ∀ c : Channel,
      c.PaceKept (Channel.reoffer (((c.clearDemand).writeLine e.loc (writeBackPlan e)).setWbq (c.wbq.erase e))) :=
    fun c => (Channel.PaceKept.of_zero (c := c) (d := c.clearDemand.writeLine e.loc (writeBackPlan e)) rfl rfl).trans
      ((Channel.paceKept_setWbq _ _).trans (Channel.paceKept_reoffer _))
  exact State.KeepsPace.frame (t := s.modChan ch (fun c =>
      Channel.reoffer (((c.clearDemand).writeLine e.loc (writeBackPlan e)).setWbq (c.wbq.erase e))))
    ((State.KeepsPace.refl s).modChan (hqueue _)) rfl rfl

/-! ### Pass ends and the walk -/

/-- A change of one Patrol Engine that leaves its pass counter and its focus count. -/
theorem State.keepsPace_modPatrol {f : PatrolEngine → PatrolEngine} (hpass : ∀ p, (f p).pass = p.pass)
    (hfocus : ∀ p, (f p).focusCount = p.focusCount) : s.KeepsPace (s.modChan ch (fun c => c.modPatrol f)) :=
  (State.KeepsPace.refl s).modChan (Channel.paceKept_modPatrol _ (fun h => (hpass _).le.trans h)
    fun h => (hfocus _).le.trans h)

theorem State.keepsPace_endPass : s.KeepsPace (s.endPass ch) :=
  .of_only (s.endPass_onlyChannel ch) (State.endPass_chan s ch ▸ (s.chan ch).paceKept_endPass)

theorem State.keepsPace_comeTo (n : Nat) : s.KeepsPace (s.comeTo ch n) := by
  unfold State.comeTo
  split
  · exact s.keepsPace_modPatrol ch (fun _ => rfl) fun _ => rfl
  · exact s.keepsPace_endPass ch

theorem State.keepsPace_haltFinish : s.KeepsPace (s.haltFinish ch) := by
  unfold State.haltFinish
  split
  · exact s.keepsPace_modPatrol ch (fun _ => rfl) fun _ => rfl
  · exact s.keepsPace_endPass ch

theorem State.keepsPace_endWait : s.KeepsPace (s.endWait ch) := by
  unfold State.endWait
  split
  · refine State.KeepsPace.trans ?_ (State.keepsPace_comeTo _ ch 0)
    exact s.keepsPace_modPatrol ch (fun _ => rfl) fun _ => rfl
  · exact .refl s

end

/-! ### Slot starts and frame starts -/

section
variable {s t : State}

theorem State.NumbersSound.budgetOf_le (h : s.NumbersSound) (ch : ChanId) (p : Phase) (slot : Nat) :
    s.budgetOf ch p slot ≤ 15 := by
  obtain ⟨-, -, hprofiles, -⟩ := h
  unfold State.budgetOf
  split
  · exact Nat.zero_le _
  · split
    · exact hprofiles p
    · exact Nat.zero_le _

theorem State.NumbersSound.slotOpened (h : s.NumbersSound) (slot : Nat) : (s.slotOpened slot).NumbersSound := by
  have hbudget := h.budgetOf_le
  obtain ⟨hsettings, hpolicies, hprofiles, herrors, hchans⟩ := h
  refine ⟨hsettings, hpolicies, hprofiles, herrors, fun c => ?_⟩
  rw [State.slotOpened, State.chan_modAllChans]
  exact Channel.inRange_withBudget _ (hchans c) (hbudget c s.cadence.activePhase slot)

/-- The pass-start waits that a slot start ends (R109). -/
theorem State.slotOpened_keepsPace_slotStart (s : State) (slot : Nat) :
    (s.slotOpened slot).KeepsPace (s.slotStart slot) :=
  State.KeepsPace.foldl State.keepsPace_endWait _ (.refl _)

theorem State.NumbersSound.slotStart (h : s.NumbersSound) (slot : Nat) : (s.slotStart slot).NumbersSound :=
  (s.slotOpened_keepsPace_slotStart slot).numbers (h.slotOpened slot)

/-- A slot of the frame starts (R125, R134). -/
theorem State.keepsPace_slotStart {slot : Nat} (h : slot < s.cadence.frameSlots) : s.KeepsPace (s.slotStart slot) := by
  refine State.KeepsPace.trans (t := s.slotOpened slot) ⟨?cadence, id, fun k => k.slotOpened slot⟩
    (s.slotOpened_keepsPace_slotStart slot)
  rintro ⟨-, -, hslots, hcount, -, -, hwatch, hsource⟩
  exact ⟨rfl, fun _ hi => Option.some.inj hi ▸ h, hslots, hcount, nofun, fun _ _ => rfl, hwatch, hsource⟩

/-- What a frame start needs to find: a slot count in range, and a watchdog reference exactly while frames come from BEAT, which
CADENCE_SOURCE EXTERNAL alone allows (R124, R125, R128, R131). -/
def State.ClockSound (s : State) : Prop :=
  (2 ≤ s.settings.slotCount ∧ s.settings.slotCount ≤ 32) ∧
  (s.cadence.watchdogRef.isSome = true ↔ s.cadence.activeSource = .external) ∧
  (s.cadence.activeSource = .external → s.settings.cadenceSource = .external)

theorem State.CadenceSound.clockSound (h : s.CadenceSound) : s.ClockSound := by
  obtain ⟨-, -, -, hcount, -, -, hwatch, hsource⟩ := h
  exact ⟨hcount, hwatch, hsource⟩

/-- A frame start takes the slot count and opens slot 0, whatever stood before (R125). -/
theorem State.ClockSound.frameStart (h : s.ClockSound) : s.frameStart.CadenceSound := by
  obtain ⟨hcount, hwatch, hsource⟩ := h
  obtain ⟨⟨hslots, -, -, hindex, hend⟩, hactive, href, hsettings, -⟩ := s.frameStart_spec
  unfold State.CadenceSound
  rw [hslots, hindex, hend, hactive, href, hsettings]
  refine ⟨rfl, fun i hi => ?first, hcount, hcount, nofun, fun _ _ => rfl, hwatch, hsource⟩
  case first =>
    cases hi
    exact Nat.lt_of_lt_of_le Nat.zero_lt_two hcount.1

/-- A frame start leaves no phase pending (R125, R132). -/
theorem State.frameStart_phaseSound (s : State) : s.frameStart.PhaseSound := by
  obtain ⟨⟨-, -, hpending, -⟩, -⟩ := s.frameStart_spec
  unfold State.PhaseSound
  rw [hpending]
  exact nofun

theorem State.NumbersSound.frameStart (h : s.NumbersSound) : s.frameStart.NumbersSound := by
  unfold State.frameStart
  refine State.NumbersSound.slotStart ?_ 0
  exact h

/-- A frame that starts once items of the Cadence Unit or settings have been set. -/
theorem State.KeepsPace.frameStart (hclock : s.CadenceSound → t.ClockSound)
    (hnumbers : s.NumbersSound → t.NumbersSound) : s.KeepsPace t.frameStart :=
  ⟨fun h => (hclock h).frameStart, fun _ => t.frameStart_phaseSound, fun h => (hnumbers h).frameStart⟩

/-- With no slot open every budget is 0 (R125, R127). -/
theorem State.NumbersSound.closeSlot (h : s.NumbersSound) : s.closeSlot.NumbersSound := by
  obtain ⟨hsettings, hpolicies, hprofiles, herrors, hchans⟩ := h
  refine ⟨hsettings, hpolicies, hprofiles, herrors, fun c => ?_⟩
  rw [State.closeSlot, State.chan_modAllChans]
  exact Channel.inRange_withBudget _ (hchans c) (Nat.zero_le 15)

theorem State.closeSlot_budget (s : State) (ch : ChanId) : (s.closeSlot.chan ch).budget = 0 := by
  rw [State.closeSlot, State.chan_modAllChans]
  rfl

/-- The wait for a BEAT: a slot ends with no slot following under EXTERNAL alone (R126, R127). -/
theorem State.keepsPace_closeSlot (hext : s.CadenceSound → s.cadence.activeSource = .external) :
    s.KeepsPace s.closeSlot := by
  refine ⟨fun h => ?cadence, id, State.NumbersSound.closeSlot⟩
  have hactive := hext h
  obtain ⟨-, -, hslots, hcount, -, -, hwatch, hsource⟩ := h
  refine ⟨rfl, nofun, hslots, hcount, fun _ => s.closeSlot_budget, fun hint => ?_, hwatch, hsource⟩
  have hboth : CadSource.external = .internal := hactive.symm.trans hint
  cases hboth

theorem State.keepsPace_endSlot (s : State) (slot : Nat) : s.KeepsPace (s.endSlot slot) := by
  unfold State.endSlot
  split
  · next hlt => exact State.keepsPace_slotStart hlt
  split
  · exact .frameStart State.CadenceSound.clockSound id
  · next hext => exact State.keepsPace_closeSlot fun _ => hext

theorem State.keepsPace_expire (s : State) : s.KeepsPace s.expire := by
  have hframe : s.KeepsPace (State.frameStart { s with
      cadence := { s.cadence with activeSource := .internal, watchdogRef := none } }) :=
    .frameStart (fun h => ⟨h.clockSound.1, ⟨nofun, nofun⟩, nofun⟩) id
  exact hframe.raise .cadenceLost

/-- A BEAT that is taken begins an external frame (R127, R130). -/
theorem State.keepsPace_beatFrame (hset : s.CadenceSound → s.settings.cadenceSource = .external) :
    s.KeepsPace s.beatFrame :=
  .frameStart (fun h => ⟨h.clockSound.1, ⟨fun _ => rfl, fun _ => rfl⟩, fun _ => hset h⟩) id

/-- SOFT_RESET restarts the cadence with the source that is active (R138). -/
theorem State.keepsPace_restartCadence (s : State) : s.KeepsPace s.restartCadence := by
  refine .frameStart (fun h => ?_) id
  obtain ⟨hcount, hwatch, hsource⟩ := h.clockSound
  refine ⟨hcount, ?_, hsource⟩
  show (if s.cadence.activeSource = .external then some s.now else s.cadence.watchdogRef).isSome = true ↔ _
  split
  · next hext => exact iff_of_true rfl hext
  · exact hwatch

/-- A slot end is due where a slot is open. -/
theorem State.keepsPace_endOpenSlot (hdue : s.slotDue = true) : s.KeepsPace s.endOpenSlot := by
  unfold State.endOpenSlot
  split
  · exact s.keepsPace_endSlot _
  · next hnone =>
    refine State.keepsPace_closeSlot fun h => ?_
    have hend : s.cadence.slotEnd = none := by
      obtain ⟨hpair, -⟩ := h
      rw [hnone] at hpair
      exact Option.isNone_iff_eq_none.mp (Option.isSome_eq_false_iff.mp hpair.symm)
    unfold State.slotDue at hdue
    rw [hend] at hdue
    cases hdue

/-- The passing of time on an empty queue (log entry 5). -/
theorem State.keepsPace_tick (s : State) : s.KeepsPace s.tick := by
  unfold State.tick
  split
  · exact .of_eq rfl rfl
  split
  · exact s.keepsPace_expire
  split
  · next hdue => exact State.keepsPace_endOpenSlot hdue
  · exact .of_eq rfl rfl

/-! ### Resets -/

/-- The state that a power-on reset leaves, whatever stood before (R124, R201). -/
theorem State.powerOnAgain_cadenceSound (s : State) : s.powerOnAgain.CadenceSound := by
  obtain ⟨-, hindex, hslots, hcount, -, -, hwatch, hsource⟩ := State.reset_cadenceSound
  exact ⟨rfl, hindex, hslots, hcount, nofun, fun _ _ => rfl, hwatch, hsource⟩

theorem State.powerOnAgain_numbersSound (s : State) : s.powerOnAgain.NumbersSound := by
  obtain ⟨hsettings, hpolicies, hprofiles, herrors, -⟩ := State.reset_numbersSound
  refine ⟨hsettings, hpolicies, hprofiles, herrors, fun c => ?_⟩
  rw [State.powerOnAgain_chan]
  exact Channel.inRange_powerOn _ (by decide)

theorem State.keepsPace_powerOnAgain (s : State) : s.KeepsPace s.powerOnAgain :=
  ⟨fun _ => s.powerOnAgain_cadenceSound, fun _ => nofun, fun _ => s.powerOnAgain_numbersSound⟩

/-- While RESET is held no slot is open and every budget is 0 (R124, R203). -/
theorem State.keepsPace_heldInReset (s : State) : s.KeepsPace s.heldInReset := by
  refine ⟨fun _ => ?cadence, fun _ => nofun, fun _ => s.powerOnAgain_numbersSound.closeSlot⟩
  obtain ⟨-, -, hslots, hcount, -, -, hwatch, hsource⟩ := State.reset_cadenceSound
  exact ⟨rfl, nofun, hslots, hcount, fun _ => s.powerOnAgain.closeSlot_budget, nofun, hwatch, hsource⟩

theorem State.keepsPace_softReset (s : State) : s.KeepsPace s.softReset := by
  have hemptied : s.KeepsPace (s.modAllChans (fun c => { c with wbq := [] })) :=
    (State.KeepsPace.refl s).modAllChans fun _ => .of_eq rfl rfl
  have habandoned : s.KeepsPace s.abandonAll :=
    hemptied.foldl (fun x c => x.keepsPace_cancelMigration c false) _
  have hcleared : s.KeepsPace (s.abandonAll.modAllChans Channel.softReset) :=
    habandoned.modAllChans Channel.paceKept_softReset
  unfold State.softReset
  exact (hcleared.trans (State.keepsPace_restartCadence _)).frame rfl rfl

end

end Sys2Proof.Machine
end

section
/-! SUPPORT. Every command and every step leaves sound the cadence, the phases and the numbers (R124 to R126, R132, R194). -/

namespace Sys2Proof.Machine

section
variable {s : State} {ch : ChanId}

/-! ### Requests and responses -/

theorem keepsPace_requestArrival (req : Request) : Yields s.KeepsPace True (execRequestArrival ch req s) := by
  unfold execRequestArrival
  split
  · exact State.KeepsPace.refl s
  split
  · exact (State.KeepsPace.refl s).raise .protocol
  · exact (State.KeepsPace.refl s).modChan (.of_eq rfl rfl)

theorem keepsPace_responseDeparture : Yields s.KeepsPace True (execResponseDeparture ch s) := by
  unfold execResponseDeparture
  split
  · exact State.KeepsPace.refl s
  split
  · exact State.KeepsPace.refl s
  · exact (State.KeepsPace.refl s).modChan (.of_eq rfl rfl)

/-! ### Issues -/

theorem keepsPace_demandReadIssue : Yields s.KeepsPace True (execDemandReadIssue ch s) := by
  unfold execDemandReadIssue
  split
  · exact s.yields_atLines ch _ ((State.KeepsPace.refl s).modChan (Channel.paceKept_demandIssue _ ch _ _ _ _ _))
  · exact State.KeepsPace.refl s

theorem keepsPace_mergeReadIssue : Yields s.KeepsPace True (execMergeReadIssue ch s) := by
  unfold execMergeReadIssue
  split
  · exact s.yields_atLines ch _ ((State.KeepsPace.refl s).modChan (Channel.paceKept_demandIssue _ ch _ _ _ _ _))
  · exact State.KeepsPace.refl s

theorem keepsPace_demandWriteIssue : Yields s.KeepsPace True (execDemandWriteIssue ch s) := by
  have hcount : s.KeepsPace (s.modChan ch (fun c => c.countDemand)) :=
    (State.KeepsPace.refl s).modChan (.of_count rfl fun _ => (s.chan ch).countDemand_le)
  unfold execDemandWriteIssue
  split
  · split
    · exact s.yields_atLines ch _
        ((hcount.trans (State.keepsPace_issueWrite _ ch _ _ _ _)).modChan (.of_eq rfl rfl))
    · exact State.KeepsPace.refl s
  · exact State.KeepsPace.refl s

theorem keepsPace_mergeWriteIssue : Yields s.KeepsPace True (execMergeWriteIssue ch s) := by
  have hcount : ∀ p : Probe, s.KeepsPace (s.modChan ch (fun c => c.countMergeWrite p)) :=
    fun p => (State.KeepsPace.refl s).modChan (Channel.paceKept_countMergeWrite _ p)
  unfold execMergeWriteIssue
  split
  · split
    · exact s.yields_atLines ch _
        (((hcount _).trans (State.keepsPace_issueWrite _ ch _ _ _ _)).modChan (.of_eq rfl rfl))
    · exact State.KeepsPace.refl s
  · exact State.KeepsPace.refl s

theorem keepsPace_poisonWriteIssue : Yields s.KeepsPace True (execPoisonWriteIssue ch s) := by
  unfold execPoisonWriteIssue
  split
  · exact s.yields_atLines ch _ (s.keepsPace_issuePoison ch _)
  · exact State.KeepsPace.refl s

theorem keepsPace_writeBackIssue : Yields s.KeepsPace True (execWriteBackIssue ch s) := by
  unfold execWriteBackIssue
  split
  · exact s.yields_atLines ch _ (s.keepsPace_issueWriteBack ch _)
  · exact State.KeepsPace.refl s

theorem keepsPace_copyReadIssue : Yields s.KeepsPace True (execCopyReadIssue ch s) := by
  unfold execCopyReadIssue
  split
  · exact s.yields_atLines ch _ ((State.KeepsPace.refl s).modChan (Channel.paceKept_migrationIssue _ ch _ _ _ _))
  · exact State.KeepsPace.refl s

theorem keepsPace_verifyReadIssue : Yields s.KeepsPace True (execVerifyReadIssue ch s) := by
  unfold execVerifyReadIssue
  split
  · exact s.yields_atLines ch _ ((State.KeepsPace.refl s).modChan (Channel.paceKept_migrationIssue _ ch _ _ _ _))
  · exact State.KeepsPace.refl s

theorem keepsPace_copyWriteIssue : Yields s.KeepsPace True (execCopyWriteIssue ch s) := by
  unfold execCopyWriteIssue
  split
  · exact s.yields_atLines ch _ ((State.KeepsPace.refl s).modChan (.of_zero rfl rfl))
  · exact State.KeepsPace.refl s

/-! ### Fill writes -/

theorem Channel.mergeHold_ne_fillWrite (c : Channel) : c.mergeHold ≠ some (some .fillWrite) := by
  unfold Channel.mergeHold
  split
  · split <;> simp
  · simp

theorem State.demandOp_ne_fillWrite (s : State) (ch : ChanId) : s.demandOp ch ≠ some .fillWrite := by
  unfold State.demandOp
  split
  · simp
  · split
    · simp
    · split
      · simp
      · split <;> simp
    · simp

theorem Channel.migrationOp_ne_fillWrite (c : Channel) : c.migrationOp ≠ some .fillWrite := by
  unfold Channel.migrationOp
  split
  · simp
  · split
    · split <;> simp
    · simp
    · split <;> simp

theorem Channel.maintenanceOp_ne_fillWrite (c : Channel) : c.maintenanceOp ≠ some .fillWrite := by
  unfold Channel.maintenanceOp
  split
  · simp
  split
  · next o ho => exact fun h => c.migrationOp_ne_fillWrite (ho.trans h)
  · split <;> simp

/-- A fill write is issued by a filling channel alone, to a line below PHYS_LINES (R75). -/
theorem State.fillProgress_lt_of_nextOp (h : s.nextOp ch = some .fillWrite) :
    (s.chan ch).fillProgress < (s.chan ch).physLines := by
  unfold State.nextOp at h
  split at h
  · split at h
    · assumption
    · cases h
  · split at h <;> cases h
  split at h
  · next o ho => exact absurd (h ▸ ho) (Channel.mergeHold_ne_fillWrite _)
  split at h
  · cases h
  split at h
  · cases h
  split at h
  · next o ho => exact absurd (ho.trans h) (s.demandOp_ne_fillWrite ch)
  · exact absurd h (Channel.maintenanceOp_ne_fillWrite _)

theorem keepsPace_fillWriteIssue : Yields s.KeepsPace True (execFillWriteIssue ch s) := by
  unfold execFillWriteIssue
  split
  case h_2 => exact State.KeepsPace.refl s
  next hop =>
  have hfill : s.KeepsPace (s.modChan ch Channel.fillStep) :=
    (State.KeepsPace.refl s).modChan (Channel.paceKept_fillStep _ (State.fillProgress_lt_of_nextOp hop))
  refine s.yields_atLines ch _ ?_
  split
  · exact hfill.raise .channelReady
  · exact hfill

/-! ### The patrol -/

/-- The ordinary reads counted between focus reads stay at 64 or below (R119). -/
theorem countFocus_le {n : Nat} (interval : Nat) (h : n ≤ 64) : countFocus interval n ≤ 64 := by
  unfold countFocus
  split
  · exact h
  · exact min_le_left 64 _

theorem keepsPace_ordinaryStep : Yields s.KeepsPace True (s.ordinaryStep ch) := by
  unfold State.ordinaryStep
  split
  · exact s.yields_atLines ch _ ((State.KeepsPace.refl s).modChan
      (Channel.paceKept_patrolIssue _ rfl (countFocus_le _) ch _ _ _))
  · exact s.keepsPace_endPass ch

/-- What an outcome yields from a state that has been reached on the way. -/
theorem Yields.paceAfter {u : State} {o : Host.Outcome State Fault Refusal} (h : s.KeepsPace u)
    (ho : Yields u.KeepsPace True o) : Yields s.KeepsPace True o := by
  cases o with
  | next t => exact h.trans ho
  | fault _ => exact ho
  | refused _ => exact ho

theorem keepsPace_patrolIssueStep : Yields s.KeepsPace True (execPatrolIssueStep ch s) := by
  unfold execPatrolIssueStep
  split
  case h_2 => exact State.KeepsPace.refl s
  split
  · split
    · exact s.yields_atLines ch _ ((State.KeepsPace.refl s).modChan
        (Channel.paceKept_patrolIssue _ rfl (fun _ => Nat.zero_le 64) ch _ _ _))
    · have hcounted : s.KeepsPace (s.modChan ch (fun c => c.modPatrol (fun p => { p with focusCount := 0 }))) :=
        (State.KeepsPace.refl s).modChan (Channel.paceKept_modPatrol _ id fun _ => Nat.zero_le 64)
      exact .paceAfter hcounted keepsPace_ordinaryStep
  · exact keepsPace_ordinaryStep

theorem keepsPace_patrolReadFinish : Yields s.KeepsPace True (execPatrolReadFinish ch s) := by
  have hdone : s.KeepsPace (s.modChan ch (fun c => c.modPatrol (fun p => { p with current := none }))) :=
    s.keepsPace_modPatrol ch (fun _ => rfl) fun _ => rfl
  have hidle := hdone.trans (State.keepsPace_modPatrol _ ch (f := fun p => { p with state := .idle }) (fun _ => rfl)
    fun _ => rfl)
  unfold execPatrolReadFinish
  split
  · exact State.KeepsPace.refl s
  split
  case isFalse => exact State.KeepsPace.refl s
  dsimp only
  split
  · exact hdone.trans (State.keepsPace_comeTo _ ch _)
  · exact hdone
  · split
    · exact hidle
    · exact hdone.trans (State.keepsPace_haltFinish _ ch)
  · exact hidle

/-! ### Decodes -/

theorem keepsPace_demandReadDecode (u : LineWords) : Yields s.KeepsPace True (execDemandReadDecode ch u s) := by
  unfold execDemandReadDecode
  split
  · split
    · split
      · exact s.keepsPace_demandDecode ch _ _ _
      · exact State.KeepsPace.refl s
    · exact State.KeepsPace.refl s
  · exact State.KeepsPace.refl s

theorem keepsPace_mergeReadDecode (u : LineWords) : Yields s.KeepsPace True (execMergeReadDecode ch u s) := by
  unfold execMergeReadDecode
  split
  · split
    · split
      · split
        · exact s.keepsPace_mergeDecode ch _ _ _ _ _ _
        · exact State.KeepsPace.refl s
      · exact State.KeepsPace.refl s
    · exact State.KeepsPace.refl s
  · exact State.KeepsPace.refl s

theorem keepsPace_copyReadDecode (u : LineWords) : Yields s.KeepsPace True (execCopyReadDecode ch u s) := by
  unfold execCopyReadDecode
  split
  · split
    · exact s.keepsPace_copyDecode ch _ _ _
    · exact s.keepsPace_migrationReports ch _ _
    · exact State.KeepsPace.refl s
  · exact State.KeepsPace.refl s

theorem keepsPace_verifyReadDecode (u : LineWords) : Yields s.KeepsPace True (execVerifyReadDecode ch u s) := by
  unfold execVerifyReadDecode
  split
  · split
    · exact s.keepsPace_verifyDecode ch _ _ _
    · exact s.keepsPace_migrationReports ch _ _
    · exact State.KeepsPace.refl s
  · exact State.KeepsPace.refl s

theorem keepsPace_patrolReadDecode (u : LineWords) : Yields s.KeepsPace True (execPatrolReadDecode ch u s) := by
  unfold execPatrolReadDecode
  split
  · split
    · exact s.keepsPace_patrolDecode ch _ _ _
    · exact State.KeepsPace.refl s
  · exact State.KeepsPace.refl s

/-! ### The cadence and the reset -/

theorem State.keepsPace_passTo (s : State) (n : Nat) : s.KeepsPace (s.passTo n) := .of_eq rfl rfl

theorem keepsPace_slotEnd : Yields s.KeepsPace True (execSlotEnd s) := by
  unfold execSlotEnd
  split
  · split
    · exact State.KeepsPace.refl s
    · exact (s.keepsPace_passTo _).trans (State.keepsPace_endSlot _ _)
  · exact State.KeepsPace.refl s

theorem keepsPace_watchdogExpiry : Yields s.KeepsPace True (execWatchdogExpiry s) := by
  unfold execWatchdogExpiry
  split
  · split
    · exact State.KeepsPace.refl s
    · exact (s.keepsPace_passTo _).trans (State.keepsPace_expire _)
  · exact State.KeepsPace.refl s

/-- A BEAT is taken under CADENCE_SOURCE EXTERNAL: frames come from BEAT only then (R126, R130). -/
theorem keepsPace_beat : Yields s.KeepsPace True (execBeat s) := by
  unfold execBeat
  split
  · exact State.KeepsPace.refl s
  split
  · next hactive =>
    exact State.keepsPace_beatFrame fun h =>
      let ⟨_, _, hsource⟩ := h.clockSound
      hsource hactive
  · next hset => exact State.keepsPace_beatFrame fun _ => hset
  · exact State.KeepsPace.refl s

theorem keepsPace_resetEnd (b : Bool) : Yields s.KeepsPace True (execResetEnd b s) := by
  unfold execResetEnd
  split
  · exact s.keepsPace_powerOnAgain.frame rfl rfl
  · exact State.KeepsPace.refl s

/-! ### The link -/

theorem State.keepsPace_transact {f : State → State} (hf : s.KeepsPace (f s)) :
    Yields s.KeepsPace True (s.transact f) := by
  unfold State.transact
  split
  · exact State.KeepsPace.of_eq rfl rfl
  split
  · exact State.KeepsPace.of_eq rfl rfl
  · exact hf

/-- A good transaction sets the link error count to 0 (R190), and makes its selections after the response. -/
theorem State.keepsPace_answer {e : Nat} {code : Byte} {f : State → Reply} (hf : s.KeepsPace (f s).state) :
    Yields s.KeepsPace True (s.answer e code f) := by
  have hresponse : s.KeepsPace ((f s).respond s e code) := (hf.setLinkErrors (Nat.zero_le 15)).frame rfl rfl
  exact State.keepsPace_transact (hresponse.trans (State.keepsPace_selectAll _ _))

/-- A link error counts to 15 at most (R186). -/
theorem State.keepsPace_linkError (s : State) (bits : Nat) (code : Byte) (r : Result) :
    s.KeepsPace (s.linkError bits code r) := by
  have hfault : s.KeepsPace (s.linkFaultAt (countLinkError s.linkErrors)) := by
    unfold State.linkFaultAt
    split
    · exact (State.KeepsPace.refl s).raise .linkFault
    · exact .refl s
  exact (hfault.setLinkErrors (min_le_left 15 (s.linkErrors + 1))).frame rfl rfl

theorem withRecord_keepsPace {b : Byte} {line : BitVec 32} {f : ChanId → Record → Reply}
    (hf : ∀ (c : ChanId) (r : Record), s.KeepsPace (f c r).state) : s.KeepsPace (withRecord s b line f).state := by
  unfold withRecord
  split
  · exact .refl s
  split
  · exact .refl s
  · exact hf _ _

theorem onChannel_keepsPace {b : Byte} {f : ChanId → Reply} (hf : ∀ c : ChanId, s.KeepsPace (f c).state) :
    s.KeepsPace (onChannel s b f).state := by
  unfold onChannel
  split
  · exact .refl s
  · exact hf _

theorem onSlot_keepsPace {b : Byte} {slot : BitVec 16} {f : ChanId → SlotId → Reply}
    (hf : ∀ (c : ChanId) (i : SlotId), s.KeepsPace (f c i).state) : s.KeepsPace (onSlot s b slot f).state := by
  unfold onSlot
  split
  · exact hf _ _
  · exact .refl s

/-! ### The settings -/

/-- A value brought into a range lies in it (R196). -/
theorem clampTo_range {lo hi : Nat} (h : lo ≤ hi) (v : Nat) : lo ≤ clampTo lo hi v ∧ clampTo lo hi v ≤ hi :=
  ⟨le_min h (le_max_left lo v), min_le_left hi _⟩

/-- A change of settings that stay in range and leave CADENCE_SOURCE as it stood. -/
theorem State.keepsPace_modSettings {f : Settings → Settings} (hrange : s.settings.InRange → (f s.settings).InRange)
    (hcount : 2 ≤ s.settings.slotCount ∧ s.settings.slotCount ≤ 32 →
      2 ≤ (f s.settings).slotCount ∧ (f s.settings).slotCount ≤ 32)
    (hsource : (f s.settings).cadenceSource = s.settings.cadenceSource) : s.KeepsPace (s.modSettings f) := by
  refine ⟨?cadence, id, fun ⟨h, hrest⟩ => ⟨hrange h, hrest⟩⟩
  rintro ⟨hend, hindex, hslots, hslotCount, hclosed, hopen, hwatch, hext⟩
  exact ⟨hend, hindex, hslots, hcount hslotCount, hclosed, hopen, hwatch, fun h => hsource.trans (hext h)⟩

theorem setPhysLinesReply_keepsPace (v : BitVec 32) : s.KeepsPace (setPhysLinesReply ch v s).state := by
  unfold setPhysLinesReply
  dsimp only
  split
  · exact .refl s
  split
  · exact .refl s
  · exact State.KeepsPace.modChan (.refl s) (f := fun c => c.changePhysLines _) (Channel.paceKept_changePhysLines _ _)

/-- CADENCE_SOURCE turned to EXTERNAL: the slot in progress stands, and the watchdog takes its reference (R131). -/
theorem State.keepsPace_toExternal (s : State) : s.KeepsPace { s with
    settings := { s.settings with cadenceSource := .external }
    cadence := { s.cadence with activeSource := .external, watchdogRef := some s.now } } := by
  refine ⟨?cadence, id, id⟩
  rintro ⟨hend, hindex, hslots, hcount, hclosed, -, -, -⟩
  exact ⟨hend, hindex, hslots, hcount, hclosed, nofun, ⟨fun _ => rfl, fun _ => rfl⟩, fun _ => rfl⟩

/-- CADENCE_SOURCE turned to INTERNAL in a fallback: frames come from the part already (R130, R131). -/
theorem State.keepsPace_endFallback (hactive : s.cadence.activeSource = .internal) :
    s.KeepsPace { s with settings := { s.settings with cadenceSource := .internal } } := by
  refine ⟨?cadence, id, id⟩
  rintro ⟨hend, hindex, hslots, hcount, hclosed, hopen, hwatch, -⟩
  refine ⟨hend, hindex, hslots, hcount, hclosed, hopen, hwatch, fun hext => ?_⟩
  have hboth : CadSource.internal = .external := hactive.symm.trans hext
  cases hboth

/-- CADENCE_SOURCE turned to INTERNAL with a slot open: the slot stands, and the watchdog stops (R131). -/
theorem State.keepsPace_toInternal (hopen : s.cadence.slotIndex.isSome = true) : s.KeepsPace { s with
    settings := { s.settings with cadenceSource := .internal }
    cadence := { s.cadence with activeSource := .internal, watchdogRef := none } } := by
  refine ⟨?cadence, id, id⟩
  rintro ⟨hend, hindex, hslots, hcount, hclosed, -, -, -⟩
  exact ⟨hend, hindex, hslots, hcount, hclosed, fun _ _ => hopen, ⟨nofun, nofun⟩, nofun⟩

/-- R131's table, cell by cell. -/
theorem State.keepsPace_changeSource (s : State) (src : CadSource) : s.KeepsPace (s.changeSource src) := by
  unfold State.changeSource
  dsimp only
  split
  · exact s.keepsPace_toExternal
  · split
    · next hactive => exact State.keepsPace_endFallback hactive
    split
    · exact State.KeepsPace.frameStart (fun h => ⟨h.clockSound.1, ⟨nofun, nofun⟩, nofun⟩) id
    · next hopen => exact State.keepsPace_toInternal (Option.isSome_iff_ne_none.mpr (by simpa using hopen))
  · exact .refl s

theorem setCadenceSourceReply_keepsPace (v : BitVec 32) : s.KeepsPace (setCadenceSourceReply v s).state := by
  unfold setCadenceSourceReply
  split
  · exact .refl s
  · exact s.keepsPace_changeSource _

theorem setCadenceTimeoutReply_keepsPace (v : BitVec 32) : s.KeepsPace (setCadenceTimeoutReply v s).state := by
  have hstored : s.KeepsPace (s.modSettings (fun c => { c with cadenceTimeout := clampTo 100 100000 v.toNat })) :=
    State.keepsPace_modSettings (fun ⟨hce, hrepeat, hdecay, hfocus, hlen, hcount, _, hlevels⟩ =>
      ⟨hce, hrepeat, hdecay, hfocus, hlen, hcount, clampTo_range (by decide) _, hlevels⟩) id rfl
  unfold setCadenceTimeoutReply
  rw [storedReply_state]
  unfold State.changeTimeout
  dsimp only
  split
  · split
    · exact hstored.trans (State.keepsPace_expire _)
    · exact hstored
  · exact hstored

theorem setFocusIntervalReply_keepsPace (v : BitVec 32) : s.KeepsPace (setFocusIntervalReply v s).state := by
  have hstored : s.KeepsPace (s.modSettings (fun c => { c with focusInterval := clampTo 0 64 v.toNat })) :=
    State.keepsPace_modSettings (fun ⟨hce, hrepeat, hdecay, _, hrest⟩ =>
      ⟨hce, hrepeat, hdecay, min_le_left 64 _, hrest⟩) id rfl
  unfold setFocusIntervalReply
  rw [storedReply_state]
  unfold State.changeFocus
  dsimp only
  split
  · exact hstored.modAllChans fun c => c.paceKept_modPatrol id fun _ => Nat.zero_le 64
  · exact hstored

theorem setAlertMaskReply_keepsPace (v : BitVec 32) : s.KeepsPace (setAlertMaskReply v s).state := by
  unfold setAlertMaskReply
  rw [storedReply_state]
  exact State.keepsPace_modSettings id id rfl

/-- A numeric setting is stored within its range (R196). -/
theorem storeNumber_keepsPace {id : Byte} {lo hi : Nat} {set : Settings → Nat → Settings} {v : BitVec 32} (hle : lo ≤ hi)
    (hrange : ∀ n, lo ≤ n ∧ n ≤ hi → s.settings.InRange → (set s.settings n).InRange)
    (hcount : ∀ n, lo ≤ n ∧ n ≤ hi → 2 ≤ s.settings.slotCount ∧ s.settings.slotCount ≤ 32 →
      2 ≤ (set s.settings n).slotCount ∧ (set s.settings n).slotCount ≤ 32)
    (hsource : ∀ n, (set s.settings n).cadenceSource = s.settings.cadenceSource) :
    s.KeepsPace (storeNumber id lo hi set v s).state := by
  have hstored := clampTo_range hle v.toNat
  unfold storeNumber
  rw [storedReply_state]
  exact State.keepsPace_modSettings (hrange _ hstored) (hcount _ hstored) (hsource _)

theorem setSettingReply_keepsPace (id : Byte) (v : BitVec 32) : s.KeepsPace (setSettingReply id v s).state := by
  unfold setSettingReply
  cases settingOf id with
  | none => exact .refl s
  | some k =>
    cases k with
    | physLines ch => exact setPhysLinesReply_keepsPace v
    | focusInterval => exact setFocusIntervalReply_keepsPace v
    | cadenceSource => exact setCadenceSourceReply_keepsPace v
    | cadenceTimeout => exact setCadenceTimeoutReply_keepsPace v
    | alertMask => exact setAlertMaskReply_keepsPace v
    | wCe => exact storeNumber_keepsPace (by decide) (fun _ hn ⟨_, hrest⟩ => ⟨hn, hrest⟩) (fun _ _ => (·)) fun _ => rfl
    | wRepeat =>
      exact storeNumber_keepsPace (by decide) (fun _ hn ⟨hce, _, hrest⟩ => ⟨hce, hn, hrest⟩) (fun _ _ => (·)) fun _ => rfl
    | decayShift =>
      exact storeNumber_keepsPace (by decide) (fun _ hn ⟨hce, hrepeat, _, hrest⟩ => ⟨hce, hrepeat, hn, hrest⟩)
        (fun _ _ => (·)) fun _ => rfl
    | slotLen =>
      exact storeNumber_keepsPace (by decide) (fun _ hn ⟨hce, hrepeat, hdecay, hfocus, _, hrest⟩ =>
        ⟨hce, hrepeat, hdecay, hfocus, hn, hrest⟩) (fun _ _ => (·)) fun _ => rfl
    | slotCount =>
      exact storeNumber_keepsPace (by decide) (fun _ hn ⟨hce, hrepeat, hdecay, hfocus, hlen, _, hrest⟩ =>
        ⟨hce, hrepeat, hdecay, hfocus, hlen, hn, hrest⟩) (fun _ hn _ => hn) fun _ => rfl
    | yieldLevel =>
      exact storeNumber_keepsPace (by decide)
        (fun _ hn ⟨hce, hrepeat, hdecay, hfocus, hlen, hcount, htimeout, _, hlimit⟩ =>
          ⟨hce, hrepeat, hdecay, hfocus, hlen, hcount, htimeout, hn, hlimit⟩) (fun _ _ => (·)) fun _ => rfl
    | linkErrorLimit =>
      exact storeNumber_keepsPace (by decide)
        (fun _ hn ⟨hce, hrepeat, hdecay, hfocus, hlen, hcount, htimeout, hyield, _⟩ =>
          ⟨hce, hrepeat, hdecay, hfocus, hlen, hcount, htimeout, hyield, hn⟩) (fun _ _ => (·)) fun _ => rfl

/-! ### Policies, profiles and the pending phase -/

theorem Vector.get_set_four {α : Type} (v : Vector α 4) (i j : Fin 4) (x : α) :
    (v.set i.val x).get j = if i = j then x else v.get j := by
  simp only [Vector.get_eq_getElem, Vector.getElem_set, Fin.ext_iff]

/-- A policy as CLASS_SET stores it lies in its range (R70). -/
theorem storedPolicy_inRange (tHot tSpare : Nat) (a w : Bool) : (storedPolicy tHot tSpare a w).InRange := by
  unfold Policy.InRange storedPolicy
  dsimp only
  omega

theorem State.keepsPace_setPolicy (s : State) (k : MemClass) {p : Policy} (hp : p.InRange) :
    s.KeepsPace (s.setPolicy k p) := by
  refine ⟨id, id, fun ⟨hsettings, hpolicies, hrest⟩ => ⟨hsettings, fun c => ?_, hrest⟩⟩
  unfold State.policy
  rw [State.setPolicy_policies, Vector.get_set_four]
  split
  · exact hp
  · exact hpolicies c

theorem classSetReply_keepsPace (cls : Byte) (tHot tSpare : BitVec 16) (auto wb : Byte) :
    s.KeepsPace (classSetReply cls tHot tSpare auto wb s).state := by
  unfold classSetReply
  split
  · exact s.keepsPace_setPolicy _ (storedPolicy_inRange _ _ _ _)
  · exact .refl s

theorem State.keepsPace_setProfile (s : State) (p : Phase) {f : Profile} (hf : f.ops ≤ 15) :
    s.KeepsPace (s.setProfile p f) := by
  refine ⟨id, id, fun ⟨hsettings, hpolicies, hprofiles, hrest⟩ => ⟨hsettings, hpolicies, fun q => ?_, hrest⟩⟩
  unfold State.profile
  rw [State.setProfile_profiles, Vector.get_set_four]
  split
  · exact hf
  · exact hprofiles q

theorem profileSetReply_keepsPace (b : Byte) (mask : BitVec 32) (ops : Byte) :
    s.KeepsPace (profileSetReply b mask ops s).state := by
  unfold profileSetReply
  split
  · exact s.keepsPace_setProfile _ (min_le_left 15 _)
  · exact .refl s

/-- Naming the active phase leaves none pending (R132). -/
theorem setPhaseReply_keepsPace (b : Byte) : s.KeepsPace (setPhaseReply b s).state := by
  unfold setPhaseReply
  split
  case h_2 => exact .refl s
  next p _ =>
  refine ⟨id, fun _ => ?_, id⟩
  show (if p = s.cadence.activePhase then none else some p) ≠ some s.cadence.activePhase
  split
  · exact nofun
  · next hne => exact fun h => hne (Option.some.inj h)

/-! ### The record commands and the sparing commands -/

theorem changeUnlessRetired_keepsPace (b : Byte) (line : BitVec 32) (f : Record → Record)
    (selects : ChanId → Record → List ChanId) : s.KeepsPace (changeUnlessRetired b line f selects s).state := by
  refine withRecord_keepsPace fun c r => ?_
  split
  · exact .refl s
  · exact .of_eq rfl rfl

theorem State.keepsPace_adopt (s : State) (k : Key) (a : AdoptAs) : s.KeepsPace (s.adopt k a) := by
  have hrec : s.KeepsPace { s with table := insertRec s.table (Machine.adopted k a) } := .of_eq rfl rfl
  cases a with
  | spared i => exact hrec.trans (State.keepsPace_setSlot _ k.channel i .allocated)
  | watch => exact hrec
  | retired => exact hrec

theorem adoptReply_keepsPace (b : Byte) (line : BitVec 32) (st : Byte) (slot : BitVec 16) :
    s.KeepsPace (adoptReply b line st slot s).state := by
  unfold adoptReply
  split
  · split
    · exact .refl s
    split
    · exact .refl s
    split
    · exact .refl s
    split
    · exact .refl s
    · exact s.keepsPace_adopt _ _
  · exact .refl s

theorem State.keepsPace_retire (s : State) (c : ChanId) (n : Nat) (r : Record) : s.KeepsPace (s.retire c n r) := by
  have hcancel : s.KeepsPace (s.retireCancel c r) := by
    unfold State.retireCancel
    split
    · exact s.keepsPace_cancelMigration c true
    · exact .refl s
  have hslot : s.KeepsPace ((s.retireCancel c r).retireSlot c n) := by
    unfold State.retireSlot
    split
    · exact hcancel.trans (State.keepsPace_setSlot _ c _ .free)
    · exact hcancel
  exact hslot.frame rfl rfl

theorem retireReply_keepsPace (b : Byte) (line : BitVec 32) : s.KeepsPace (retireReply b line s).state := by
  refine withRecord_keepsPace fun c r => ?_
  split
  · exact .refl s
  · exact s.keepsPace_retire c _ r

theorem releaseReply_keepsPace (b : Byte) (line : BitVec 32) : s.KeepsPace (releaseReply b line s).state := by
  refine withRecord_keepsPace fun c r => ?_
  split
  · exact .of_eq rfl rfl
  · exact .refl s

theorem spareReply_keepsPace (b : Byte) (line : BitVec 32) : s.KeepsPace (spareReply b line s).state := by
  refine withRecord_keepsPace fun c r => ?_
  split
  · exact .refl s
  split
  · exact .refl s
  split
  · exact .refl s
  · exact s.keepsPace_startMigration r _ true

theorem cancelReply_keepsPace (b : Byte) (line : BitVec 32) : s.KeepsPace (cancelReply b line s).state := by
  refine withRecord_keepsPace fun c r => ?_
  split
  · exact s.keepsPace_cancelMigration c true
  · exact .refl s

theorem spareRestoreReply_keepsPace (b : Byte) (slot : BitVec 16) :
    s.KeepsPace (spareRestoreReply b slot s).state := by
  refine onSlot_keepsPace fun c i => ?_
  split
  · exact s.keepsPace_setSlot c i .free
  · exact .refl s

/-! ### The commands of the channels and the patrol -/

theorem channelFillReply_keepsPace (b : Byte) : s.KeepsPace (channelFillReply b s).state := by
  refine onChannel_keepsPace fun c => ?_
  split
  · exact .refl s
  split
  · exact .refl s
  have hfilling : s.KeepsPace (s.modChan c (fun d => { d.emptyWbq with state := .initializing, fillProgress := 0 })) :=
    (State.KeepsPace.refl s).modChan ⟨le_rfl, fun ⟨hlines, _, _, hrest⟩ =>
      ⟨hlines, Nat.zero_le _, Nat.zero_le 8, hrest⟩⟩
  exact hfilling.frame rfl rfl

theorem State.keepsPace_setChannel (s : State) (c : ChanId) (x : ChannelState) : s.KeepsPace (s.setChannel c x) :=
  (State.KeepsPace.refl s).modChan (.of_eq rfl rfl)

theorem channelOnlineReply_keepsPace (b : Byte) : s.KeepsPace (channelOnlineReply b s).state := by
  refine onChannel_keepsPace fun c => ?_
  split
  · exact .refl s
  split
  · exact .refl s
  · exact s.keepsPace_setChannel c .online

theorem channelOfflineReply_keepsPace (b : Byte) : s.KeepsPace (channelOfflineReply b s).state := by
  refine onChannel_keepsPace fun c => ?_
  split
  · exact .refl s
  · exact s.keepsPace_setChannel c .disabled
  split
  · exact s.keepsPace_setChannel c .disabled
  · exact .refl s

theorem State.keepsPace_startPatrol (s : State) (c : ChanId) (m : PatrolMode) (start : Option Nat) :
    s.KeepsPace (s.startPatrol c m start) := by
  unfold State.startPatrol
  refine State.KeepsPace.trans ?_ (State.keepsPace_comeTo _ c _)
  exact s.keepsPace_modPatrol c (fun _ => rfl) fun _ => rfl

theorem patrolStartReply_keepsPace (b mode flag : Byte) (start : BitVec 32) :
    s.KeepsPace (patrolStartReply b mode flag start s).state := by
  unfold patrolStartReply
  split
  · split
    · exact .refl s
    split
    · exact .refl s
    split
    · exact .refl s
    · exact s.keepsPace_startPatrol _ _ _
  · exact .refl s

theorem patrolHalt_keepsPace (b : Byte) : s.KeepsPace (onChannel s b (fun c =>
    patrolReply (s.modChan c (fun d => d.modPatrol PatrolEngine.halt)) c .ok)).state :=
  onChannel_keepsPace fun c => s.keepsPace_modPatrol c (fun p => by rw [PatrolEngine.halt_eq])
    fun p => by rw [PatrolEngine.halt_eq]

theorem captureClear_keepsPace (b : Byte) : s.KeepsPace (onChannel s b (fun c =>
    reply (s.modChan c (fun d => { d with capture := none })) (captureReadout c (s.chan c).capture))).state :=
  onChannel_keepsPace fun c => State.KeepsPace.modChan (.refl s) (ch := c) (f := fun d => { d with capture := none })
    (.of_eq rfl rfl)

theorem countsClear_keepsPace (b : Byte) : s.KeepsPace (onChannel s b (fun c =>
    reply (s.modChan c (fun d => { d with ceCount := 0, ueCount := 0 })) (countsReadout (s.chan c)))).state :=
  onChannel_keepsPace fun c => State.KeepsPace.modChan (.refl s) (ch := c)
    (f := fun d => { d with ceCount := 0, ueCount := 0 }) ⟨le_rfl, fun ⟨hlines, hfill, hcount, hbudget, hpass, hfocus, _, _⟩ =>
      ⟨hlines, hfill, hcount, hbudget, hpass, hfocus, Nat.zero_le _, Nat.zero_le _⟩⟩

/-! ### The commands that leave every one of these items alone -/

theorem statusReply_keepsPace (page : Byte) : s.KeepsPace (statusReply page s).state := by
  unfold statusReply
  split
  · exact .refl s
  · split <;> exact .refl s

theorem getSettingReply_keepsPace (id : Byte) : s.KeepsPace (getSettingReply id s).state := by
  unfold getSettingReply
  split <;> exact .refl s

theorem nextReply_keepsPace (flag b : Byte) (line : BitVec 32) (filter : Byte) :
    s.KeepsPace (nextReply flag b line filter s).state := by
  rw [nextReply_state]
  exact .refl s

theorem regionSetReply_keepsPace (index enabled chans : Byte) (first last : BitVec 32) (cls : Byte) :
    s.KeepsPace (regionSetReply index enabled chans first last cls s).state := by
  unfold regionSetReply
  split
  · unfold regionStore
    split
    · exact .refl s
    split
    · exact .refl s
    · exact .of_eq rfl rfl
  · exact .refl s

theorem regionGetReply_keepsPace (index : Byte) : s.KeepsPace (regionGetReply index s).state := by
  unfold regionGetReply
  split <;> exact .refl s

theorem classGetReply_keepsPace (cls : Byte) : s.KeepsPace (classGetReply cls s).state := by
  unfold classGetReply
  split <;> exact .refl s

theorem profileGetReply_keepsPace (b : Byte) : s.KeepsPace (profileGetReply b s).state := by
  unfold profileGetReply
  split <;> exact .refl s

theorem alertAckReply_keepsPace (k : BitVec 16) : s.KeepsPace (alertAckReply k s).state := by
  unfold alertAckReply
  split
  · exact .of_eq rfl rfl
  · exact .refl s

end

/-! ### Every command and every step -/

/-- Every command leads to a state whose cadence, pending phase and numbers are sound if they were. -/
theorem exec_keepsPace (i : Instr) (s : State) : Yields s.KeepsPace True (exec i s) := by
  cases i with
  | requestArrival ch req => exact keepsPace_requestArrival req
  | responseDeparture ch => exact keepsPace_responseDeparture
  | demandReadIssue ch => exact keepsPace_demandReadIssue
  | demandReadDecode ch u => exact keepsPace_demandReadDecode u
  | demandWriteIssue ch => exact keepsPace_demandWriteIssue
  | mergeReadIssue ch => exact keepsPace_mergeReadIssue
  | mergeReadDecode ch u => exact keepsPace_mergeReadDecode u
  | mergeWriteIssue ch => exact keepsPace_mergeWriteIssue
  | poisonWriteIssue ch => exact keepsPace_poisonWriteIssue
  | writeBackIssue ch => exact keepsPace_writeBackIssue
  | fillWriteIssue ch => exact keepsPace_fillWriteIssue
  | copyReadIssue ch => exact keepsPace_copyReadIssue
  | copyReadDecode ch u => exact keepsPace_copyReadDecode u
  | copyWriteIssue ch => exact keepsPace_copyWriteIssue
  | verifyReadIssue ch => exact keepsPace_verifyReadIssue
  | verifyReadDecode ch u => exact keepsPace_verifyReadDecode u
  | patrolIssueStep ch => exact keepsPace_patrolIssueStep
  | patrolReadDecode ch u => exact keepsPace_patrolReadDecode u
  | patrolReadFinish ch => exact keepsPace_patrolReadFinish
  | slotEnd => exact keepsPace_slotEnd
  | beat => exact keepsPace_beat
  | watchdogExpiry => exact keepsPace_watchdogExpiry
  | resetAssert => exact s.keepsPace_heldInReset
  | resetEnd b => exact keepsPace_resetEnd b
  | linkShort bits =>
    exact State.keepsPace_transact (f := fun t => t.linkError bits 0x00 .short) (s.keepsPace_linkError _ _ _)
  | linkCheckError e code =>
    exact State.keepsPace_transact (f := fun t => t.linkError (192 + e) code .checkError) (s.keepsPace_linkError _ _ _)
  | unknown => exact State.keepsPace_answer (f := fun t => refuse t .unknown) (.refl s)
  | nop => exact State.keepsPace_answer (f := fun t => reply t 0) (.refl s)
  | status e page => exact State.keepsPace_answer (statusReply_keepsPace page)
  | getSetting e id => exact State.keepsPace_answer (getSettingReply_keepsPace id)
  | setSetting e id v => exact State.keepsPace_answer (setSettingReply_keepsPace id v)
  | setPhysLines e ch v => exact State.keepsPace_answer (setPhysLinesReply_keepsPace v)
  | setCadenceSource e v => exact State.keepsPace_answer (setCadenceSourceReply_keepsPace v)
  | setCadenceTimeout e v => exact State.keepsPace_answer (setCadenceTimeoutReply_keepsPace v)
  | setFocusInterval e v => exact State.keepsPace_answer (setFocusIntervalReply_keepsPace v)
  | setAlertMask e v => exact State.keepsPace_answer (setAlertMaskReply_keepsPace v)
  | softReset => exact State.keepsPace_answer (f := softResetReply) s.keepsPace_softReset
  | lookup e b line =>
    exact State.keepsPace_answer (f := lookupReply b line) (withRecord_keepsPace fun _ _ => .refl s)
  | next e flag b line filter => exact State.keepsPace_answer (nextReply_keepsPace flag b line filter)
  | adopt e b line st slot => exact State.keepsPace_answer (adoptReply_keepsPace b line st slot)
  | pin => exact State.keepsPace_answer (changeUnlessRetired_keepsPace _ _ _ _)
  | unpin => exact State.keepsPace_answer (changeUnlessRetired_keepsPace _ _ _ _)
  | retire e b line => exact State.keepsPace_answer (retireReply_keepsPace b line)
  | release e b line => exact State.keepsPace_answer (releaseReply_keepsPace b line)
  | clearHold => exact State.keepsPace_answer (changeUnlessRetired_keepsPace _ _ _ _)
  | spare e b line => exact State.keepsPace_answer (spareReply_keepsPace b line)
  | cancel e b line => exact State.keepsPace_answer (cancelReply_keepsPace b line)
  | spareQuery e b =>
    exact State.keepsPace_answer (f := fun t => onChannel t b (fun c => reply t (spareQueryReadout (t.chan c))))
      (onChannel_keepsPace fun _ => .refl s)
  | spareSlot e b slot =>
    exact State.keepsPace_answer (f := fun t => onSlot t b slot (fun c i =>
      reply t (spareSlotReadout ((t.chan c).slots.get i) (slotOwner t.table c i)))) (onSlot_keepsPace fun _ _ => .refl s)
  | spareRestore e b slot => exact State.keepsPace_answer (spareRestoreReply_keepsPace b slot)
  | regionSet => exact State.keepsPace_answer (regionSetReply_keepsPace _ _ _ _ _ _)
  | regionGet e index => exact State.keepsPace_answer (regionGetReply_keepsPace index)
  | classSet => exact State.keepsPace_answer (classSetReply_keepsPace _ _ _ _ _)
  | classGet e cls => exact State.keepsPace_answer (classGetReply_keepsPace cls)
  | channelFill e b => exact State.keepsPace_answer (channelFillReply_keepsPace b)
  | channelOnline e b => exact State.keepsPace_answer (channelOnlineReply_keepsPace b)
  | channelOffline e b => exact State.keepsPace_answer (channelOfflineReply_keepsPace b)
  | patrolStart => exact State.keepsPace_answer (patrolStartReply_keepsPace _ _ _ _)
  | patrolHalt e b =>
    exact State.keepsPace_answer (f := fun t => onChannel t b (fun c =>
      patrolReply (t.modChan c (fun d => d.modPatrol PatrolEngine.halt)) c .ok)) (patrolHalt_keepsPace b)
  | setPhase e b => exact State.keepsPace_answer (setPhaseReply_keepsPace b)
  | profileSet e b mask ops => exact State.keepsPace_answer (profileSetReply_keepsPace b mask ops)
  | profileGet e b => exact State.keepsPace_answer (profileGetReply_keepsPace b)
  | captureRead e b =>
    exact State.keepsPace_answer
      (f := fun t => onChannel t b (fun c => reply t (captureReadout c (t.chan c).capture)))
      (onChannel_keepsPace fun _ => .refl s)
  | captureClear e b =>
    exact State.keepsPace_answer (f := fun t => onChannel t b (fun c =>
      reply (t.modChan c (fun d => { d with capture := none })) (captureReadout c (t.chan c).capture)))
      (captureClear_keepsPace b)
  | countsRead e b =>
    exact State.keepsPace_answer (f := fun t => onChannel t b (fun c => reply t (countsReadout (t.chan c))))
      (onChannel_keepsPace fun _ => .refl s)
  | countsClear e b =>
    exact State.keepsPace_answer (f := fun t => onChannel t b (fun c =>
      reply (t.modChan c (fun d => { d with ceCount := 0, ueCount := 0 })) (countsReadout (t.chan c))))
      (countsClear_keepsPace b)
  | alertRead => exact State.keepsPace_answer (f := fun t => reply t (alertReadout t)) (.refl s)
  | alertAck e k => exact State.keepsPace_answer (alertAckReply_keepsPace k)

theorem step_keepsPace {s t : State} (h : step s = .next t) : s.KeepsPace t := by
  unfold step at h
  split at h
  · next i rest _ =>
    have hexec := exec_keepsPace i { s with pending := rest }
    rw [h] at hexec
    exact State.KeepsPace.trans (t := { s with pending := rest }) (.of_eq rfl rfl) hexec
  · cases h
    exact s.keepsPace_tick

/-- Settles O60: every command and the passing of time keep the cadence, the pending phase and every number sound. -/
theorem stepsKeepCadenceAndNumbersSound : Obligations.StepsKeepCadenceAndNumbersSound :=
  ⟨fun _ _ hs h => (step_keepsPace h).cadence hs, fun _ _ hs h => (step_keepsPace h).phase hs,
    fun _ _ hs h => (step_keepsPace h).numbers hs⟩

end Sys2Proof.Machine
end

section
/-! SUPPORT. Slot starts and the events of the cadence: what each sets and what it leaves (R125 to R130, R134, R135), and what
an idle moment brings (log entries 5 and 6). -/

namespace Sys2Proof.Machine

section
variable (s : State) (slot : Nat) (ch : ChanId)

/-! ### Slot starts (R125, R134, R135) -/

theorem State.slotOpened_chan : (s.slotOpened slot).chan ch =
    (s.chan ch).withBudget (s.budgetOf ch s.cadence.activePhase slot) := State.chan_modAllChans _ ch _

theorem State.slotStart_budget : ((s.slotStart slot).chan ch).budget = s.budgetOf ch s.cadence.activePhase slot := by
  obtain ⟨-, hchan, -⟩ := s.slotStart_spec slot
  rw [hchan ch]

theorem State.slotStart_queue : ((s.slotStart slot).chan ch).queue = (s.chan ch).queue := by
  obtain ⟨-, hchan, -⟩ := s.slotStart_spec slot
  rw [hchan ch]

variable {s slot ch}

/-- A slot without budget leaves a pass-start wait as it stands (R109). -/
theorem State.slotStart_patrol_waiting (h : s.budgetOf ch s.cadence.activePhase slot = 0) :
    ((s.slotStart slot).chan ch).patrol = (s.chan ch).patrol := by
  have hstays : (s.slotOpened slot).endWait ch = s.slotOpened slot := by
    unfold State.endWait
    rw [State.slotOpened_chan, h]
    exact if_neg (by simp [Channel.withBudget])
  rw [State.slotStart_chan, hstays, State.slotOpened_chan]
  rfl

/-- A slot with budget ends the wait, and the engine comes to its first patrolled line (R105, R109). -/
theorem State.slotStart_patrol_started (hwait : (s.chan ch).patrol.startWait = true)
    (hbudget : 1 ≤ s.budgetOf ch s.cadence.activePhase slot) {l : Nat} (hl : l < (s.chan ch).visible)
    (hcls : s.classOf ch l ≠ .unscrubbed) (hgap : ∀ k, k < l → s.classOf ch k = .unscrubbed) :
    ((s.slotStart slot).chan ch).patrol = { (s.chan ch).patrol with startWait := false, position := l } := by
  have hends : (s.slotOpened slot).endWait ch = ((s.slotOpened slot).modChan ch
      (fun c => c.modPatrol (fun p => { p with startWait := false }))).comeTo ch 0 := by
    unfold State.endWait
    rw [State.slotOpened_chan]
    exact if_pos (Bool.and_eq_true_iff.mpr ⟨hwait, decide_eq_true hbudget⟩)
  have hvisible : l < (((s.slotOpened slot).modChan ch
      (fun c => c.modPatrol (fun p => { p with startWait := false }))).chan ch).visible := by
    rw [State.chan_modChan_same, State.slotOpened_chan]
    exact hl
  rw [State.slotStart_chan, hends, State.comeTo_patrolled (Nat.zero_le l) hvisible hcls fun k _ => hgap k,
    State.chan_modChan_same, State.chan_modChan_same, State.slotOpened_chan]
  rfl

end

/-- Settles O53: each part of what a slot start sets. -/
theorem slotStartSetsBudgets : Obligations.SlotStartSetsBudgets := fun s slot =>
  ⟨s.slotStart_cadence slot, fun ch => ⟨s.slotStart_budget slot ch, s.slotStart_queue slot ch,
    fun _ hnone => State.slotStart_patrol_waiting hnone,
    fun hwait hbudget _ hl hcls hgap => State.slotStart_patrol_started hwait hbudget hl hcls hgap⟩⟩

/-! ### Frame starts and slot ends (R125 to R127) -/

theorem and_not_of_or_eq {n : Nat} {a b x : BitVec n} (h : b = a ∨ b = a ||| x) : b &&& ~~~x = a &&& ~~~x := by
  rcases h with rfl | rfl
  · rfl
  · ext i hi
    simp [Bool.and_or_distrib_right]

section
variable (s : State) (slot : Nat)

/-- The pass ends at a slot start may raise PASS_DONE, and no other cause (R108, R109). -/
theorem State.slotStart_causes : (s.slotStart slot).causes &&& ~~~Cause.passDone.single =
    s.causes &&& ~~~Cause.passDone.single := by
  obtain ⟨-, -, hcauses⟩ := s.slotStart_spec slot
  exact and_not_of_or_eq hcauses

theorem State.frameStart_causes : s.frameStart.causes &&& ~~~Cause.passDone.single =
    s.causes &&& ~~~Cause.passDone.single := by
  unfold State.frameStart
  exact State.slotStart_causes _ 0

theorem State.frameStart_budget (ch : ChanId) : (s.frameStart.chan ch).budget =
    s.budgetOf ch (s.cadence.pendingPhase.getD s.cadence.activePhase) 0 := by
  unfold State.frameStart
  exact State.slotStart_budget _ 0 ch

theorem State.endSlot_now : (s.endSlot slot).now = s.now := by
  obtain ⟨-, -, -, -, hframe⟩ := s.frameStart_spec
  unfold State.endSlot
  split
  · exact s.slotStart_now _
  split
  · exact hframe
  · rfl

theorem State.endSlot_causes : (s.endSlot slot).causes &&& ~~~Cause.passDone.single =
    s.causes &&& ~~~Cause.passDone.single := by
  unfold State.endSlot
  split
  · exact s.slotStart_causes _
  split
  · exact s.frameStart_causes
  · rfl

variable {s slot}

theorem State.endSlot_of_lt (h : slot + 1 < s.cadence.frameSlots) : s.endSlot slot = s.slotStart (slot + 1) := if_pos h

theorem State.endSlot_last_internal (h : s.cadence.frameSlots ≤ slot + 1) (hsource : s.cadence.activeSource = .internal) :
    s.endSlot slot = s.frameStart := by
  unfold State.endSlot
  rw [if_neg (Nat.not_lt.mpr h), hsource]

theorem State.endSlot_last_external (h : s.cadence.frameSlots ≤ slot + 1) (hsource : s.cadence.activeSource = .external) :
    s.endSlot slot = s.closeSlot := by
  unfold State.endSlot
  rw [if_neg (Nat.not_lt.mpr h), hsource]

/-! ### The moment of an event (log entry 5) -/

theorem laterThan_eq_false {t : Nat} {other : Option Nat} (h : ∀ u, other = some u → t ≤ u) :
    laterThan t other = false := by
  cases other with
  | none => rfl
  | some u => exact decide_eq_false (Nat.not_lt.mpr (h u rfl))

theorem State.watchdogDue_eq {r : Nat} (h : s.cadence.watchdogRef = some r) :
    s.watchdogDue = some (r + s.settings.cadenceTimeout) := by
  unfold State.watchdogDue
  rw [h]
  rfl

/-- SLOT_END where the watchdog does not expire before the slot's end. -/
theorem execSlotEnd_eq {e : Nat} (hindex : s.cadence.slotIndex = some slot) (hend : s.cadence.slotEnd = some e)
    (hfirst : ∀ r, s.cadence.watchdogRef = some r → e ≤ r + s.settings.cadenceTimeout) :
    execSlotEnd s = .next ((s.passTo e).endSlot slot) := by
  have hnot : laterThan e s.watchdogDue = false := laterThan_eq_false fun u hu => by
    obtain ⟨r, hr, rfl⟩ := Option.map_eq_some_iff.mp hu
    exact hfirst r hr
  unfold execSlotEnd
  simp only [hindex, hend, hnot, Bool.false_eq_true, if_false]

/-- WATCHDOG_EXPIRY where the open slot does not end before the expiry. -/
theorem execWatchdogExpiry_eq {r : Nat} (hr : s.cadence.watchdogRef = some r)
    (hfirst : ∀ e, s.cadence.slotEnd = some e → r + s.settings.cadenceTimeout ≤ e) :
    execWatchdogExpiry s = .next (s.passTo (r + s.settings.cadenceTimeout)).expire := by
  have hnot : laterThan (r + s.settings.cadenceTimeout) s.cadence.slotEnd = false := laterThan_eq_false hfirst
  unfold execWatchdogExpiry
  simp only [State.watchdogDue_eq hr, hnot, Bool.false_eq_true, if_false]

/-- A BEAT that is taken begins a frame of the external source (R127, R130). -/
theorem State.beatFrame_spec (s : State) : s.FrameBegun s.beatFrame ∧ s.beatFrame.cadence.activeSource = .external ∧
    s.beatFrame.cadence.watchdogRef = some s.now ∧ s.beatFrame.now = s.now ∧ s.beatFrame.settings = s.settings := by
  obtain ⟨hframe, hsource, href, hsettings, hnow⟩ := State.frameStart_spec { s with
    cadence := { s.cadence with activeSource := .external, watchdogRef := some s.now } }
  exact ⟨hframe, hsource, href, hnow, hsettings⟩

theorem execBeat_taken (hreset : s.resetAsserted = false)
    (h : s.cadence.activeSource = .external ∨ s.settings.cadenceSource = .external) :
    execBeat s = .next s.beatFrame := by
  unfold execBeat
  rw [hreset, if_neg Bool.false_ne_true]
  split
  · rfl
  · rfl
  · next hactive hset =>
    rw [hactive, hset] at h
    rcases h with h | h <;> cases h

end

/-- Settles O52: SLOT_END by what follows the slot, BEAT by the source, and WATCHDOG_EXPIRY. -/
theorem cadenceEvents : Obligations.CadenceEvents := by
  intro s
  refine ⟨fun i e hindex hend hfirst => ?slotEnd, fun hreset => if_pos hreset, fun hreset hactive hset => ?noBeat,
    fun hreset h => ⟨_, execBeat_taken hreset h, s.beatFrame_spec⟩, fun r hr hfirst => ?expiry⟩
  case slotEnd =>
    refine ⟨_, execSlotEnd_eq hindex hend hfirst, State.endSlot_now _ i, State.endSlot_causes _ i, fun hlt => ?next,
      fun hlast hsource => ?frame, fun hlast hsource => ?wait⟩
    case next =>
      have hnext : (s.passTo e).endSlot i = (s.passTo e).slotStart (i + 1) := State.endSlot_of_lt hlt
      rw [hnext, State.slotStart_now]
      exact ⟨State.slotStart_cadence _ _, State.slotStart_budget _ _⟩
    case frame =>
      have hframe : (s.passTo e).endSlot i = (s.passTo e).frameStart := State.endSlot_last_internal hlast hsource
      obtain ⟨hbegun, -⟩ := (s.passTo e).frameStart_spec
      rw [hframe]
      exact ⟨hbegun, State.frameStart_budget _⟩
    case wait =>
      have hwait : (s.passTo e).endSlot i = (s.passTo e).closeSlot := State.endSlot_last_external hlast hsource
      rw [hwait]
      exact ⟨rfl, State.closeSlot_budget _⟩
  case noBeat =>
    rw [exec_beat, execBeat, hreset, if_neg Bool.false_ne_true, hactive, hset]
  case expiry =>
    obtain ⟨hframe, hsource, href, hsettings, hnow, hlost⟩ := (s.passTo (r + s.settings.cadenceTimeout)).expire_spec
    exact ⟨_, execWatchdogExpiry_eq hr hfirst, hframe, hsource, href, hlost, congrArg _ hsettings, hnow⟩

/-! ### The passing of time (log entries 1, 5 and 6) -/

theorem reached_eq_false {due : Option Nat} {now : Nat} (h : ∀ t, due = some t → now < t) : reached due now = false := by
  cases due with
  | none => rfl
  | some t => exact decide_eq_false (Nat.not_le.mpr (h t rfl))

section
variable {s : State}

theorem State.expiryDue_eq_false (h : ∀ r, s.cadence.watchdogRef = some r → s.now < r + s.settings.cadenceTimeout) :
    s.expiryDue = false := reached_eq_false fun t ht => by
  obtain ⟨r, hr, rfl⟩ := Option.map_eq_some_iff.mp ht
  exact h r hr

theorem State.expiryDue_eq_true {r : Nat} (hr : s.cadence.watchdogRef = some r)
    (h : r + s.settings.cadenceTimeout ≤ s.now) : s.expiryDue = true := by
  unfold State.expiryDue
  rw [State.watchdogDue_eq hr]
  exact decide_eq_true h

theorem State.slotDue_eq_true {e : Nat} (hend : s.cadence.slotEnd = some e) (h : e ≤ s.now) : s.slotDue = true := by
  unfold State.slotDue
  rw [hend]
  exact decide_eq_true h

/-- The moment stays where it is at an event that is due. -/
theorem State.passTo_of_le {t : Nat} (h : t ≤ s.now) : s.passTo t = s := by
  unfold State.passTo
  rw [max_eq_left h]

theorem step_of_idle (h : s.pending = []) : step s = .next s.tick := by
  unfold step
  rw [h]

theorem State.tick_of_reset (h : s.resetAsserted = true) : s.tick = { s with now := s.now + 1 } := if_pos h

section
variable (hreset : s.resetAsserted = false)
include hreset

theorem State.tick_of_none_due (hslot : s.slotDue = false) (hexpiry : s.expiryDue = false) :
    s.tick = { s with now := s.now + 1 } := by
  simp [State.tick, hreset, hslot, hexpiry]

theorem State.tick_of_expiry (hslot : s.slotDue = false) (hexpiry : s.expiryDue = true) : s.tick = s.expire := by
  simp [State.tick, hreset, hslot, hexpiry]

theorem State.tick_of_slot {i : Nat} (hindex : s.cadence.slotIndex = some i) (hslot : s.slotDue = true)
    (h : s.expiryDue = false ∨ Config.expiryFirst s.now = false) : s.tick = s.endSlot i := by
  have hends : s.endOpenSlot = s.endSlot i := by
    unfold State.endOpenSlot
    rw [hindex]
  rcases h with h | h <;> simp [State.tick, hreset, hslot, h, hends]

theorem State.tick_of_both (hexpiry : s.expiryDue = true) (h : Config.expiryFirst s.now = true) : s.tick = s.expire := by
  simp [State.tick, hreset, hexpiry, h]

end

/-- SLOT_END at the end of a slot that is due. -/
theorem exec_slotEnd_due {i e : Nat} (hindex : s.cadence.slotIndex = some i) (hend : s.cadence.slotEnd = some e)
    (hdue : e ≤ s.now) (hfirst : ∀ r, s.cadence.watchdogRef = some r → e ≤ r + s.settings.cadenceTimeout) :
    exec .slotEnd s = .next (s.endSlot i) := by
  rw [exec_slotEnd, execSlotEnd_eq hindex hend hfirst, State.passTo_of_le hdue]

/-- WATCHDOG_EXPIRY at an expiry that is due. -/
theorem exec_watchdogExpiry_due {r : Nat} (hr : s.cadence.watchdogRef = some r)
    (hdue : r + s.settings.cadenceTimeout ≤ s.now)
    (hfirst : ∀ e, s.cadence.slotEnd = some e → r + s.settings.cadenceTimeout ≤ e) :
    exec .watchdogExpiry s = .next s.expire := by
  rw [exec_watchdogExpiry, execWatchdogExpiry_eq hr hfirst, State.passTo_of_le hdue]

end

/-- Settles O1: the front command, and on an empty queue what is due at the moment. -/
theorem stepRunsFrontCommand : Obligations.StepRunsFrontCommand := by
  refine ⟨fun _ _ _ => rfl, fun s hidle => ?_⟩
  rw [step_of_idle hidle]
  refine ⟨fun hreset => congrArg _ (State.tick_of_reset hreset), fun hreset =>
    ⟨fun hslot hexpiry => ?none, fun i e hindex hend hdue hexpiry => ?slot, fun r hr hdue hslot => ?expiry,
      fun i r hindex hend hr hboth => ?both⟩⟩
  case none =>
    exact congrArg _ (State.tick_of_none_due hreset (reached_eq_false hslot) (State.expiryDue_eq_false hexpiry))
  case slot =>
    rw [exec_slotEnd_due hindex hend hdue fun r hr => hdue.trans (hexpiry r hr).le,
      State.tick_of_slot hreset hindex (State.slotDue_eq_true hend hdue) (.inl (State.expiryDue_eq_false hexpiry))]
  case expiry =>
    rw [exec_watchdogExpiry_due hr hdue fun e he => hdue.trans (hslot e he).le,
      State.tick_of_expiry hreset (reached_eq_false hslot) (State.expiryDue_eq_true hr hdue)]
  case both =>
    by_cases hfirst : Config.expiryFirst s.now = true
    · refine .inr ?_
      rw [State.tick_of_both hreset (State.expiryDue_eq_true hr hboth.le) hfirst,
        exec_watchdogExpiry_due hr hboth.le fun e he => hboth.le.trans (Option.some.inj (hend.symm.trans he)).le]
    · refine .inl ?_
      rw [State.tick_of_slot hreset hindex (State.slotDue_eq_true hend le_rfl) (.inr (Bool.eq_false_iff.mpr hfirst)),
        exec_slotEnd_due hindex hend le_rfl fun r' hr' => Option.some.inj (hr.symm.trans hr') ▸ hboth.ge]

end Sys2Proof.Machine
end

section
/-! SUPPORT. SET_SETTING of CADENCE_SOURCE by R131's table, and SET_PHASE, PROFILE_SET and PROFILE_GET (R131 to R133, R196). -/

namespace Sys2Proof.Machine

/-! ### CADENCE_SOURCE (R131, R196) -/

theorem sourceArg_of_two_le {v : BitVec 32} (h : 2 ≤ v.toNat) : sourceArg v = none := by
  unfold sourceArg
  split
  · omega
  · omega
  · rfl

section
variable {s : State}

theorem setCadenceSourceReply_badValue {v : BitVec 32} (h : 2 ≤ v.toNat) :
    setCadenceSourceReply v s = refuse s .range := by
  unfold setCadenceSourceReply
  rw [sourceArg_of_two_le h]

theorem setCadenceSourceReply_internal : setCadenceSourceReply 0 s =
    { state := s.changeSource .internal, result := .ok, payload := 0x20#8 ++ 0#152, selects := [] } := by
  have hpayload : settingReadout 0x20 0 = 0x20#8 ++ 0#152 := by decide
  rw [← hpayload]
  rfl

theorem setCadenceSourceReply_external : setCadenceSourceReply 1 s =
    { state := s.changeSource .external, result := .ok, payload := 0x20#8 ++ (1#32 ++ 0#120), selects := [] } := rfl

/-- The state with CADENCE_SOURCE turned to INTERNAL, frames from the part and no watchdog (R131). -/
def State.turnedInternal (s : State) : State :=
  { s with
    settings := { s.settings with cadenceSource := .internal }
    cadence := { s.cadence with activeSource := .internal, watchdogRef := none } }

/-- Naming the source that is set changes nothing. -/
theorem State.changeSource_self {src : CadSource} (h : s.settings.cadenceSource = src) : s.changeSource src = s := by
  unfold State.changeSource
  subst h
  cases s.settings.cadenceSource <;> rfl

theorem State.changeSource_external (h : s.settings.cadenceSource = .internal) : s.changeSource .external = { s with
    settings := { s.settings with cadenceSource := .external }
    cadence := { s.cadence with activeSource := .external, watchdogRef := some s.now } } := by
  unfold State.changeSource
  rw [h]
  rfl

section
variable (h : s.settings.cadenceSource = .external)
include h

/-- To INTERNAL in a fallback: the cadence goes on as it stands. -/
theorem State.changeSource_fallback (hactive : s.cadence.activeSource = .internal) :
    s.changeSource .internal = { s with settings := { s.settings with cadenceSource := .internal } } := by
  unfold State.changeSource
  rw [h]
  exact if_pos hactive

variable (hactive : s.cadence.activeSource = .external)
include hactive

/-- To INTERNAL from BEAT frames: a slot that is open stands, and else a frame begins. -/
theorem State.changeSource_fromBeat : s.changeSource .internal =
    if s.cadence.slotIndex.isNone then s.turnedInternal.frameStart else s.turnedInternal := by
  have hne : ¬ s.cadence.activeSource = .internal := by
    rw [hactive]
    exact nofun
  unfold State.changeSource
  rw [h]
  exact if_neg hne

theorem State.changeSource_slotOpen {i : Nat} (hi : s.cadence.slotIndex = some i) :
    s.changeSource .internal = s.turnedInternal := by
  rw [State.changeSource_fromBeat h hactive, hi]
  rfl

theorem State.changeSource_waiting (hi : s.cadence.slotIndex = none) :
    s.changeSource .internal = s.turnedInternal.frameStart := by
  rw [State.changeSource_fromBeat h hactive, hi]
  rfl

end

end

/-- Settles O17: the value's code, and then R131's table cell by cell. -/
theorem cadenceSourceSetting : Obligations.CadenceSourceSetting := by
  intro s e hready
  have hinternal {t : State} (ht : s.changeSource .internal = t) :
      exec (.setCadenceSource e 0) s = .next (t.withAnswer s e 0x03 .ok (0x20#8 ++ 0#152)) :=
    State.answer_plain hready (ht ▸ setCadenceSourceReply_internal)
  have hexternal {t : State} (ht : s.changeSource .external = t) :
      exec (.setCadenceSource e 1) s = .next (t.withAnswer s e 0x03 .ok (0x20#8 ++ (1#32 ++ 0#120))) :=
    State.answer_plain hready (ht ▸ setCadenceSourceReply_external)
  refine ⟨fun v hv => State.answer_refuse hready (setCadenceSourceReply_badValue hv),
    fun hset => ⟨hinternal (State.changeSource_self hset), hexternal (State.changeSource_external hset)⟩,
    fun hset => ⟨hexternal (State.changeSource_self hset), fun hactive => hinternal (State.changeSource_fallback hset hactive),
      fun hactive i hi => hinternal (State.changeSource_slotOpen hset hactive hi), fun hactive hi => ?waiting⟩⟩
  case waiting =>
    have hframe := hinternal (State.changeSource_waiting hset hactive hi)
    obtain ⟨hbegun, hsource, href, hsettings, -⟩ := s.turnedInternal.frameStart_spec
    have hbudget := s.turnedInternal.frameStart_budget
    generalize s.turnedInternal.frameStart = u at *
    exact ⟨_, hframe, hbegun, hsource, href, hsettings, rfl, rfl, hbudget⟩

/-! ### Phases and profiles (R132, R133) -/

section
variable {s : State}

/-- The payload of SET_PHASE: the active phase, and the pending one or 0xFF (R192). -/
theorem phaseReadout_setPhase (c : Cadence) (p : Phase) : phaseReadout (c.setPhase p) =
    c.activePhase.byte ++ ((if p = c.activePhase then 0xFF#8 else p.byte) ++ 0#144) := by
  unfold phaseReadout Cadence.setPhase
  by_cases h : p = c.activePhase
  · simp only [if_pos h]
    rfl
  · simp only [if_neg h]

theorem setPhaseReply_byte (p : Phase) : setPhaseReply p.byte s =
    reply { s with cadence := s.cadence.setPhase p } (phaseReadout (s.cadence.setPhase p)) := by
  rw [setPhaseReply, phaseArg_byte]

theorem okOrClamped_lt (n m : Nat) : okOrClamped (decide (n < m)) = if m ≤ n then .ok else .clamped := by
  unfold okOrClamped
  by_cases h : m ≤ n
  · rw [if_pos h, if_neg (by simpa using h)]
  · rw [if_neg h, if_pos (by simpa using h)]

theorem profileSetReply_byte (p : Phase) (mask : BitVec 32) (ops : Byte) : profileSetReply p.byte mask ops s =
    { state := s.setProfile p { mask := mask, ops := min 15 ops.toNat }
      result := if ops.toNat ≤ 15 then .ok else .clamped
      payload := profileReadout p { mask := mask, ops := min 15 ops.toNat }, selects := [] } := by
  rw [profileSetReply, phaseArg_byte, okOrClamped_lt]

theorem profileGetReply_byte (p : Phase) : profileGetReply p.byte s = reply s (profileReadout p (s.profile p)) := by
  rw [profileGetReply, phaseArg_byte]

variable {b : Byte} (h : 4 ≤ b.toNat)
include h

theorem setPhaseReply_badCode : setPhaseReply b s = refuse s .range := by
  rw [setPhaseReply, phaseArg_of_four_le h]

theorem profileSetReply_badCode (mask : BitVec 32) (ops : Byte) : profileSetReply b mask ops s = refuse s .range := by
  rw [profileSetReply, phaseArg_of_four_le h]

theorem profileGetReply_badCode : profileGetReply b s = refuse s .range := by
  rw [profileGetReply, phaseArg_of_four_le h]

end

/-- Settles O34: each of the three commands by its phase, and the codes that name none. -/
theorem phaseCommands : Obligations.PhaseCommands := by
  intro s e hready
  refine ⟨fun p => ?setPhase, fun p mask ops => State.answer_plain hready (profileSetReply_byte p mask ops),
    fun p => State.answer_reply hready (profileGetReply_byte p), fun b ops mask hb => ⟨?_, ?_, ?_⟩⟩
  case setPhase => exact State.answer_reply hready ((setPhaseReply_byte p).trans (by rw [phaseReadout_setPhase]; rfl))
  · exact State.answer_refuse hready (setPhaseReply_badCode hb)
  · exact State.answer_refuse hready (profileSetReply_badCode hb mask ops)
  · exact State.answer_refuse hready (profileGetReply_badCode hb)

end Sys2Proof.Machine
end

section
/-! SUPPORT. The commands of Capture and Alert, the ALERT line cause by cause, and one event handed over (R169 to R179). -/

namespace Sys2Proof.Machine

/-! ### The ALERT line (R177) -/

/-- Every bit of a cause set is a cause's (R191). -/
theorem Cause.bit_surjective : Function.Surjective Cause.bit := by
  intro i
  fin_cases i
  exacts [⟨.ue, rfl⟩, ⟨.ueCritical, rfl⟩, ⟨.poisonRead, rfl⟩, ⟨.spareExhausted, rfl⟩, ⟨.tableFull, rfl⟩,
    ⟨.migrationDone, rfl⟩, ⟨.migrationFailed, rfl⟩, ⟨.passDone, rfl⟩, ⟨.channelReady, rfl⟩, ⟨.cadenceLost, rfl⟩,
    ⟨.linkFault, rfl⟩, ⟨.protocol, rfl⟩]

theorem causeSet_ne_zero_iff (a : CauseSet) : a ≠ 0 ↔ ∃ c : Cause, hasCause a c = true := by
  constructor
  · intro ha
    by_contra hnone
    refine ha (BitVec.eq_of_getLsbD_eq fun i hi => ?_)
    obtain ⟨c, hc⟩ := Cause.bit_surjective ⟨i, hi⟩
    have hbit : hasCause a c = a.getLsbD i := by rw [hasCause, hc]
    rw [← hbit, Bool.eq_false_iff.mpr fun h => hnone ⟨c, h⟩]
    exact BitVec.getLsbD_zero.symm
  · rintro ⟨c, hc⟩ rfl
    simp [hasCause] at hc

theorem hasCause_unmasked (a m : CauseSet) (c : Cause) : hasCause (a &&& ~~~m) c = (hasCause a c && !hasCause m c) := by
  simp [hasCause]

theorem State.alertLine_iff {s : State} (h : s.resetAsserted = false) :
    s.alertLine = true ↔ ∃ c : Cause, hasCause s.causes c = true ∧ hasCause s.settings.alertMask c = false := by
  have hline : s.alertLine = true ↔ s.causes &&& ~~~s.settings.alertMask ≠ 0 := by simp [State.alertLine, h]
  simp only [hline, causeSet_ne_zero_iff, hasCause_unmasked, Bool.and_eq_true, Bool.not_eq_true']

/-! ### ALERT_ACK (R179) -/

section
variable {v : BitVec 16}

theorem causesArg_of_lt (h : v.toNat < 4096) : causesArg v = some (v.setWidth 12) := if_pos h

theorem causesArg_of_le (h : 4096 ≤ v.toNat) : causesArg v = none := if_neg (Nat.not_lt.mpr h)

variable (s : State)

theorem alertAckReply_acks (h : v.toNat < 4096) : alertAckReply v s =
    reply { s with causes := s.causes &&& ~~~(v.setWidth 12) } (ackReadout s.causes (s.causes &&& ~~~(v.setWidth 12))) := by
  rw [alertAckReply, causesArg_of_lt h]

theorem alertAckReply_range (h : 4096 ≤ v.toNat) : alertAckReply v s = refuse s .range := by
  rw [alertAckReply, causesArg_of_le h]

end

/-- Settles O35: the four commands of a channel, ALERT_READ and the line it shows, and ALERT_ACK by the causes it names. -/
theorem captureAndAlertCommands : Obligations.CaptureAndAlertCommands := by
  intro s e hready
  refine ⟨fun ch => ⟨?captureRead, ?captureClear, ?countsRead, ?countsClear⟩, ?alertRead, State.alertLine_iff hready.1,
    fun causes hc => ?ack, fun causes hc => ?ackRange⟩
  case captureRead => exact (exec_captureRead ..).trans (State.answer_reply hready (onChannel_ofNat ..))
  case captureClear => exact (exec_captureClear ..).trans (State.answer_reply hready (onChannel_ofNat ..))
  case countsRead => exact (exec_countsRead ..).trans (State.answer_reply hready (onChannel_ofNat ..))
  case countsClear => exact (exec_countsClear ..).trans (State.answer_reply hready (onChannel_ofNat ..))
  case alertRead => exact (exec_alertRead ..).trans (State.answer_reply hready rfl)
  case ack => exact State.answer_reply hready (alertAckReply_acks s hc)
  case ackRange => exact State.answer_refuse hready (alertAckReply_range s hc)

/-! ### One event (R169, R172, R174) -/

theorem ErrKind.eq_ue_iff (k : ErrKind) : k = .ue ↔ k ≠ .ce := by cases k <;> decide

/-- The cause that a UE raises is UE_CRITICAL in the class CRITICAL, and UE in every other (R174). -/
theorem MemClass.ueCause_single (c : MemClass) :
    c.ueCause.single = if c = .critical then Cause.ueCritical.single else Cause.ue.single := by
  cases c <;> rfl

/-- Beside the channels an event changes the causes alone. -/
theorem State.captureOne_frame (s : State) (ch : ChanId) (e : Capture) : s.captureOne ch e =
    { s with chans := (s.captureOne ch e).chans, causes := (s.captureOne ch e).causes } := by
  unfold State.captureOne
  cases e.outcome <;> rfl

/-- Settles O36: the frame of an event, then its causes, the capture record and the two counts. -/
theorem captureTakesFirstSignificantEvent : Obligations.CaptureTakesFirstSignificantEvent := by
  intro s ch ev
  obtain ⟨⟨-, hothers⟩, -, -, hchan⟩ := State.captureOne_spec s ch ev
  obtain ⟨hce, hue, hcauses⟩ := State.captureOne_counts s ch ev
  simp only [ErrKind.eq_ue_iff, ne_eq, ite_not] at hue hcauses
  rw [MemClass.ueCause_single] at hcauses
  refine ⟨?_, hothers, ?_⟩
  · exact (State.captureOne_frame s ch ev).trans (by rw [hcauses])
  · exact hchan.trans (by rw [hce, hue]; rfl)

end Sys2Proof.Machine
end

section
/-! SUPPORT. The bits of a transaction: what the last 192 bits clocked are, where each byte of a command's transaction stands,
and which command a code names (R181 to R183, R185, R189, R192). -/

namespace Sys2Proof

/-! ### The last 192 bits clocked (R182) -/

/-- Bits shifted into a frame stand in it from the last one clocked upwards. -/
theorem getLsbD_foldl_shiftConcat (f : Frame) (l : List Bool) (i : Nat) (h : i < l.length) (hi : i < 192) :
    (l.foldl (fun f b => f.shiftConcat b) f).getLsbD i = l.reverse[i]'(by simpa using h) := by
  induction l using List.reverseRecOn generalizing i with
  | nil => cases h
  | append_singleton l b ih =>
    simp only [List.foldl_append, List.foldl_cons, List.foldl_nil, List.reverse_append, List.reverse_singleton,
      List.singleton_append]
    rw [BitVec.getLsbD_shiftConcat, decide_eq_true hi, Bool.true_and]
    cases i with
    | zero => rfl
    | succ j =>
      rw [if_neg (Nat.succ_ne_zero j), Nat.add_sub_cancel, List.getElem_cons_succ]
      exact ih j (by simpa using h) (by omega)

@[simp] theorem Frame.bits_length (f : Frame) : f.bits.length = 192 := by
  rw [Frame.bits, List.length_map, List.length_range]

/-- Whatever was clocked before them, the last 192 bits are the frame. -/
theorem lastFrame_append_bits (before : List Bool) (f : Frame) : lastFrame (before ++ f.bits) = f := by
  refine BitVec.eq_of_getLsbD_eq fun i hi => ?_
  have hlen : i < (before ++ f.bits).length := by
    rw [List.length_append, Frame.bits_length]
    omega
  have hrev : i < f.bits.reverse.length := by
    rw [List.length_reverse, Frame.bits_length]
    exact hi
  have hplace : 192 - 1 - (192 - 1 - i) = i := by omega
  have hbit : 192 - 1 - i < 192 := by omega
  simp only [lastFrame, getLsbD_foldl_shiftConcat 0 _ i hlen hi, List.reverse_append, List.getElem_append_left hrev,
    List.getElem_reverse, Frame.bits_length]
  simp only [Frame.bits, List.getElem_map, List.getElem_range, BitVec.getMsbD_eq_getLsbD, hplace, hbit, decide_true,
    Bool.true_and]

theorem decodeTransaction_frame (before : List Bool) (f : Frame) :
    decodeTransaction (before ++ f.bits) = decodeFrame before.length f := by
  have hlen : (before ++ f.bits).length = before.length + 192 := by rw [List.length_append, Frame.bits_length]
  rw [decodeTransaction, hlen, if_neg (by omega), Nat.add_sub_cancel, lastFrame_append_bits]

theorem Frame.good_iff (f : Frame) : f.good = true ↔ f.byte 23 = checkByte f.body := beq_iff_eq

theorem decodeFrame_good {f : Frame} (h : f.byte 23 = checkByte f.body) (extra : Nat) :
    decodeFrame extra f = decodeCommand extra f := if_pos (f.good_iff.mpr h)

theorem decodeFrame_bad {f : Frame} (h : f.byte 23 ≠ checkByte f.body) (extra : Nat) :
    decodeFrame extra f = .linkCheckError extra (f.byte 0) := if_neg (mt f.good_iff.mp h)

/-! ### The bytes of a checked body (R189) -/

section
variable (body : BitVec 184)

@[simp] theorem Frame.body_withCheck : Frame.body (Frame.withCheck body) = body := BitVec.extractLsb'_append_eq_left

@[simp] theorem Frame.check_withCheck : Frame.byte (Frame.withCheck body) 23 = checkByte body :=
  BitVec.extractLsb'_append_eq_right

end

/-! ### The command that a code names (R185, R192) -/

theorem ofNat_mem_of_toNat_eq {c : Byte} {l : List Byte} {n : Nat} (h : c.toNat = n) (hn : BitVec.ofNat 8 n ∈ l) :
    c ∈ l := by
  rw [← h, BitVec.ofNat_toNat, BitVec.setWidth_eq] at hn
  exact hn

theorem decodeCommand_unassigned {f : Frame} (h : f.byte 0 ∉ assignedCodes) (extra : Nat) :
    decodeCommand extra f = .unknown extra (f.byte 0) := by
  unfold decodeCommand
  split
  case h_37 => rfl
  all_goals next hcode => exact absurd (ofNat_mem_of_toNat_eq hcode (by decide)) h

theorem decodeSetting_plain {id : Byte} (h : id ∉ ownRowSettings) (extra : Nat) (v : BitVec 32) :
    decodeSetting extra id v = .setSetting extra id v := by
  unfold decodeSetting
  split
  case h_9 => rfl
  all_goals next hid => exact absurd (ofNat_mem_of_toNat_eq hid (by decide)) h

theorem decodeSetting_physLines (extra : Nat) (ch : ChanId) (v : BitVec 32) :
    decodeSetting extra (BitVec.ofNat 8 ch.val) v = .setPhysLines extra ch v := by
  fin_cases ch <;> rfl

/-! ### The fields of a transaction (R192) -/

/-- The body of a frame ends with some bits. -/
def Frame.EndsWith (f : Frame) {w : Nat} (r : BitVec w) : Prop := (Frame.body f).extractLsb' 0 w = r

theorem Frame.endsWith_withCheck (body : BitVec 184) : (Frame.withCheck body).EndsWith body := by
  rw [Frame.EndsWith, Frame.body_withCheck, BitVec.extractLsb'_eq_self]

section
variable {f : Frame} {w n : Nat} {r : BitVec w}

theorem Frame.extract_body (f : Frame) {start k : Nat} (h : start + k ≤ 184) :
    (Frame.body f).extractLsb' start k = f.extractLsb' (8 + start) k := by
  refine BitVec.eq_of_getLsbD_eq fun i hi => ?_
  rw [Frame.body, BitVec.getLsbD_extractLsb', BitVec.getLsbD_extractLsb', BitVec.getLsbD_extractLsb',
    decide_eq_true (show start + i < 184 by omega), Bool.true_and, Nat.add_assoc]

theorem Frame.EndsWith.extract (h : f.EndsWith r) (hw : w ≤ 184) {start k : Nat} (hk : start + k ≤ w) :
    f.extractLsb' (8 + start) k = r.extractLsb' start k := by
  rw [← Frame.extract_body f (by omega), ← h]
  refine BitVec.eq_of_getLsbD_eq fun i hi => ?_
  rw [BitVec.getLsbD_extractLsb', BitVec.getLsbD_extractLsb', BitVec.getLsbD_extractLsb',
    decide_eq_true (show start + i < w by omega), Bool.true_and, Nat.zero_add]

/-- The first field of the bits that a body ends with, and the bits behind it. -/
theorem Frame.EndsWith.field {k : Nat} {a : BitVec k} (h : f.EndsWith (a ++ r)) (hw : k + w ≤ 184) :
    f.extractLsb' (8 + w) k = a ∧ f.EndsWith r := by
  refine ⟨(h.extract hw (by omega)).trans BitVec.extractLsb'_append_eq_left, ?_⟩
  rw [Frame.EndsWith, Frame.extract_body f (by omega)]
  exact (h.extract hw (by omega)).trans BitVec.extractLsb'_append_eq_right

theorem Frame.EndsWith.byte {a : Byte} (h : f.EndsWith (a ++ r)) (n : Nat) (hn : w + 8 * n = 176 := by decide) :
    f.byte n = a ∧ f.EndsWith r := by
  have hplace : 8 * (23 - n) = 8 + w := by omega
  rw [Frame.byte, hplace]
  exact h.field (by omega)

theorem Frame.EndsWith.half {a : BitVec 16} (h : f.EndsWith (a ++ r)) (n : Nat) (hn : w + 8 * n = 168 := by decide) :
    f.half n = a ∧ f.EndsWith r := by
  have hplace : 8 * (22 - n) = 8 + w := by omega
  rw [Frame.half, hplace]
  exact h.field (by omega)

theorem Frame.EndsWith.quad {a : BitVec 32} (h : f.EndsWith (a ++ r)) (n : Nat) (hn : w + 8 * n = 152 := by decide) :
    f.quad n = a ∧ f.EndsWith r := by
  have hplace : 8 * (20 - n) = 8 + w := by omega
  rw [Frame.quad, hplace]
  exact h.field (by omega)

end

/-- SET_SETTING's transaction is read as the row of its setting. -/
theorem decodeCommand_setting (extra : Nat) (id : Byte) (v : BitVec 32) :
    decodeCommand extra (Frame.withCheck (body5 0x03 id v)) = decodeSetting extra id v := by
  obtain ⟨hcode, h⟩ := (Frame.endsWith_withCheck (body5 0x03 id v)).byte 0
  obtain ⟨hid, h⟩ := h.byte 1
  obtain ⟨hv, -⟩ := h.quad 2
  rw [decodeCommand, hcode, hid, hv]
  rfl

/-- A command's code selects its arm, which reads the command's fields one after the other. -/
theorem decodeCommand_body {i : Instr} {b : BitVec 184} (hw : i.wellFormed = true) (hb : i.body? = some b) :
    decodeCommand i.extra (Frame.withCheck b) = i := by
  have h := Frame.endsWith_withCheck b
  cases i with
  | unknown extra code =>
    obtain rfl := Option.some.inj hb
    obtain ⟨hcode, -⟩ := h.byte 0
    have hun : code ∉ assignedCodes := by simpa [Instr.wellFormed] using hw
    rw [decodeCommand_unassigned (hcode.symm ▸ hun), hcode]
    rfl
  | setSetting extra id v =>
    obtain rfl := Option.some.inj hb
    have hplain : id ∉ ownRowSettings := by simpa [Instr.wellFormed] using hw
    exact (decodeCommand_setting extra id v).trans (decodeSetting_plain hplain extra v)
  | setPhysLines extra ch v =>
    obtain rfl := Option.some.inj hb
    exact (decodeCommand_setting extra _ v).trans (decodeSetting_physLines extra ch v)
  | setCadenceSource | setCadenceTimeout | setFocusInterval | setAlertMask =>
    obtain rfl := Option.some.inj hb
    exact decodeCommand_setting ..
  | nop | softReset | alertRead =>
    obtain rfl := Option.some.inj hb
    obtain ⟨hcode, -⟩ := h.byte 0
    rw [decodeCommand, hcode]
    rfl
  | status | getSetting | spareQuery | regionGet | classGet | channelFill | channelOnline | channelOffline
  | patrolHalt | setPhase | profileGet | captureRead | captureClear | countsRead | countsClear =>
    obtain rfl := Option.some.inj hb
    obtain ⟨hcode, h⟩ := h.byte 0
    obtain ⟨harg, -⟩ := h.byte 1
    rw [decodeCommand, hcode, harg]
    rfl
  | spareSlot | spareRestore =>
    obtain rfl := Option.some.inj hb
    obtain ⟨hcode, h⟩ := h.byte 0
    obtain ⟨hch, h⟩ := h.byte 1
    obtain ⟨hslot, -⟩ := h.half 2
    rw [decodeCommand, hcode, hch, hslot]
    rfl
  | lookup | pin | unpin | retire | release | clearHold | spare | cancel =>
    obtain rfl := Option.some.inj hb
    obtain ⟨hcode, h⟩ := h.byte 0
    obtain ⟨hch, h⟩ := h.byte 1
    obtain ⟨hline, -⟩ := h.quad 2
    rw [decodeCommand, hcode, hch, hline]
    rfl
  | next =>
    obtain rfl := Option.some.inj hb
    obtain ⟨hcode, h⟩ := h.byte 0
    obtain ⟨hflag, h⟩ := h.byte 1
    obtain ⟨hch, h⟩ := h.byte 2
    obtain ⟨hline, h⟩ := h.quad 3
    obtain ⟨hfilter, -⟩ := h.byte 7
    rw [decodeCommand, hcode, hflag, hch, hline, hfilter]
    rfl
  | adopt =>
    obtain rfl := Option.some.inj hb
    obtain ⟨hcode, h⟩ := h.byte 0
    obtain ⟨hch, h⟩ := h.byte 1
    obtain ⟨hline, h⟩ := h.quad 2
    obtain ⟨hstate, h⟩ := h.byte 6
    obtain ⟨hslot, -⟩ := h.half 7
    rw [decodeCommand, hcode, hch, hline, hstate, hslot]
    rfl
  | regionSet =>
    obtain rfl := Option.some.inj hb
    obtain ⟨hcode, h⟩ := h.byte 0
    obtain ⟨hindex, h⟩ := h.byte 1
    obtain ⟨henabled, h⟩ := h.byte 2
    obtain ⟨hchans, h⟩ := h.byte 3
    obtain ⟨hfirst, h⟩ := h.quad 4
    obtain ⟨hlast, h⟩ := h.quad 8
    obtain ⟨hcls, -⟩ := h.byte 12
    rw [decodeCommand, hcode, hindex, henabled, hchans, hfirst, hlast, hcls]
    rfl
  | classSet =>
    obtain rfl := Option.some.inj hb
    obtain ⟨hcode, h⟩ := h.byte 0
    obtain ⟨hcls, h⟩ := h.byte 1
    obtain ⟨hhot, h⟩ := h.half 2
    obtain ⟨hspare, h⟩ := h.half 4
    obtain ⟨hauto, h⟩ := h.byte 6
    obtain ⟨hwb, -⟩ := h.byte 7
    rw [decodeCommand, hcode, hcls, hhot, hspare, hauto, hwb]
    rfl
  | patrolStart =>
    obtain rfl := Option.some.inj hb
    obtain ⟨hcode, h⟩ := h.byte 0
    obtain ⟨hch, h⟩ := h.byte 1
    obtain ⟨hmode, h⟩ := h.byte 2
    obtain ⟨hflag, h⟩ := h.byte 3
    obtain ⟨hstart, -⟩ := h.quad 4
    rw [decodeCommand, hcode, hch, hmode, hflag, hstart]
    rfl
  | profileSet =>
    obtain rfl := Option.some.inj hb
    obtain ⟨hcode, h⟩ := h.byte 0
    obtain ⟨hphase, h⟩ := h.byte 1
    obtain ⟨hmask, h⟩ := h.quad 2
    obtain ⟨hops, -⟩ := h.byte 6
    rw [decodeCommand, hcode, hphase, hmask, hops]
    rfl
  | alertAck =>
    obtain rfl := Option.some.inj hb
    obtain ⟨hcode, h⟩ := h.byte 0
    obtain ⟨hcauses, -⟩ := h.half 1
    rw [decodeCommand, hcode, hcauses]
    rfl
  | _ => cases hb

/-- Settles O5: the check byte is right, and the code and the fields are read back. -/
theorem transactionRoundTrip : Obligations.TransactionRoundTrip := by
  intro i before bits hw hlen hbits
  obtain ⟨b, hb, rfl⟩ := Option.map_eq_some_iff.mp hbits
  have hcheck : Frame.byte (Frame.withCheck b) 23 = checkByte (Frame.body (Frame.withCheck b)) := by
    rw [Frame.check_withCheck, Frame.body_withCheck]
  rw [decodeTransaction_frame, decodeFrame_good hcheck, hlen, decodeCommand_body hw hb]

/-- Settles O6: by the length, by the check byte, and by the code. -/
theorem unreadableTransactions : Obligations.UnreadableTransactions := by
  refine ⟨fun bits h => if_pos h, fun before f h => ?badCheck, fun before f h hcode => ?unassigned⟩
  case badCheck => rw [decodeTransaction_frame, decodeFrame_bad h]
  case unassigned => rw [decodeTransaction_frame, decodeFrame_good h, decodeCommand_unassigned hcode]

/-! ### Transactions that the manual writes out (R183, R199) -/

theorem Frame.bits_zero : Frame.bits 0 = List.replicate 192 false := by decide +kernel

/-- All zeros are a NOP with a correct check byte (R183, R199). -/
theorem decodeTransaction_zeros (before : List Bool) :
    decodeTransaction (before ++ List.replicate 192 false) = .nop before.length := by
  have hcheck : Frame.byte 0 23 = checkByte (Frame.body 0) := by decide +kernel
  rw [← Frame.bits_zero, decodeTransaction_frame, decodeFrame_good hcheck]
  rfl

/-- The check byte of STATUS page 0 (R183). -/
theorem checkByte_status_zero : checkByte (0x01#8 ++ 0#176) = 0xE3 := by decide +kernel

/-- Settles O7: all zeros have the check byte 0, and STATUS page 0 has the check byte 0xE3 and no other. -/
theorem transactionsOfTheManual : Obligations.TransactionsOfTheManual := by
  refine ⟨decodeTransaction_zeros [], ?status, fun b hb => ?badCheck⟩
  case status =>
    have hframe : (0x01#8 ++ (0#176 ++ 0xE3#8) : Frame) = Frame.withCheck (body1 0x01 0) := by decide +kernel
    rw [hframe]
    exact transactionRoundTrip (.status 0 0) [] _ rfl rfl rfl
  case badCheck =>
    have hframe : (0x01#8 ++ (0#176 ++ b) : Frame) = (0x01#8 ++ 0#176) ++ b := (BitVec.append_assoc ..).symm
    have hbody : Frame.body (0x01#8 ++ (0#176 ++ b)) = 0x01#8 ++ 0#176 :=
      hframe ▸ BitVec.extractLsb'_append_eq_left
    have hlast : Frame.byte (0x01#8 ++ (0#176 ++ b)) 23 = b := hframe ▸ BitVec.extractLsb'_append_eq_right
    have hcode : Frame.byte (0x01#8 ++ (0#176 ++ b)) 0 = 0x01 := BitVec.extractLsb'_append_eq_left
    obtain ⟨-, hbad, -⟩ := unreadableTransactions
    have hread := hbad [] (0x01#8 ++ (0#176 ++ b)) (by rwa [hlast, hbody, checkByte_status_zero])
    rwa [hcode] at hread

end Sys2Proof
end

section
/-! SUPPORT. What the link answers and drives on SDO: the bytes of a response, the summary byte, link errors, the low periods of
a reset, and NOP (R182 to R190, R199, R203). -/

namespace Sys2Proof.Machine

/-! ### The bits of a response (R182, R184, R188 to R190) -/

section
variable (r : Response)

/-- Byte by byte, the frame of a response is as R189 lays it out. -/
theorem Response.byte_frame (n : Nat) (h : n < 24) : r.frame.byte n = r.byteAt n := by
  have hbody : r.frame.EndsWith (r.code ++ (r.result.byte ++ (r.summary ++ r.payload))) := Frame.endsWith_withCheck _
  obtain ⟨hcode, hbody⟩ := hbody.byte 0
  obtain ⟨hresult, hbody⟩ := hbody.byte 1
  obtain ⟨hsummary, hpayload⟩ := hbody.byte 2
  unfold Response.byteAt
  split
  · next h0 => rw [h0, hcode]
  split
  · next h1 =>
    rw [h1, hresult]
    cases r.result <;> rfl
  split
  · next h2 => rw [h2, hsummary]
  split
  · have hplace : 8 * (23 - n) = 8 + 8 * (22 - n) := by omega
    rw [Frame.byte, hplace]
    exact hpayload.extract (by decide) (by omega)
  · next h23 =>
    obtain rfl : n = 23 := by omega
    exact Frame.check_withCheck _

theorem Response.getMsbD_frame (i : Nat) (h : i < 192) :
    r.frame.getMsbD i = (r.byteAt (i / 8)).getLsbD (7 - i % 8) := by
  rw [← r.byte_frame _ (by omega), Frame.byte, BitVec.getLsbD_extractLsb', BitVec.getMsbD_eq_getLsbD, decide_eq_true h,
    decide_eq_true (by omega)]
  congr 2
  omega

theorem sdoBits_length (n : Nat) : (sdoBits r n).length = n := by rw [sdoBits, List.length_map, List.length_range]

theorem sdoBits_getElem? (n i : Nat) (h : i < n) : (sdoBits r n)[i]? =
    some (if i < 192 then (r.byteAt (i / 8)).getLsbD (7 - i % 8) else true) := by
  rw [sdoBits, List.getElem?_map, List.getElem?_range h, Option.map_some]
  split
  · next hi => rw [r.getMsbD_frame i hi]
  · rfl

end

/-- The CRC-8 of R183, bit by bit. -/
theorem checkByte_eq (body : BitVec 184) : checkByte body = (List.range 184).foldl
    (fun (c : Byte) i => if c.getLsbD 7 ≠ body.getLsbD (183 - i) then (c <<< 1) ^^^ 0x31 else c <<< 1) 0 := by
  refine List.foldl_ext _ _ _ fun c i hi => ?_
  have hbit : body.getMsbD i = body.getLsbD (183 - i) := by
    rw [BitVec.getMsbD_eq_getLsbD, decide_eq_true (List.mem_range.mp hi), Bool.true_and]
  unfold crcBit
  rw [hbit, BitVec.msb_eq_getLsbD_last]
  cases c.getLsbD 7 <;> cases body.getLsbD (183 - i) <;> rfl

/-- The summary byte (R190). -/
theorem summaryByte_fields (alert : Bool) (n : Nat) (h : n ≤ 15) : (summaryByte alert n).getLsbD 7 = alert ∧
    (summaryByte alert n).extractLsb' 4 3 = 0 ∧ ((summaryByte alert n).extractLsb' 0 4).toNat = n := by
  revert alert
  interval_cases n <;> decide

/-! ### Link errors (R182, R183, R186) -/

/-- Everything that a link error changes. -/
theorem State.linkError_eq {s u : State} {n : Nat} (hn : n = min 15 (s.linkErrors + 1))
    (hu : u = { s with
      causes := if s.settings.linkErrorLimit ≤ n then s.causes ||| Cause.linkFault.single else s.causes })
    (bits : Nat) (code : Byte) (r : Result) : s.linkError bits code r = { u with
      response := { code := code, result := r, summary := summaryByte u.alertLine n, payload := 0 }
      linkErrors := n, sdo := sdoBits s.response bits } := by
  have hfault : s.linkFaultAt n = u := by
    unfold State.linkFaultAt
    rw [hu]
    split <;> rfl
  have hcount : countLinkError s.linkErrors = n := hn.symm
  unfold State.linkError
  dsimp only
  rw [hcount, hfault]

/-- Settles O8: the bits on SDO, the check byte, the summary byte, and the two link errors. -/
theorem linkErrorsCountAndAnswer : Obligations.LinkErrorsCountAndAnswer := by
  refine ⟨fun r n => ⟨sdoBits_length r n, sdoBits_getElem? r n⟩, checkByte_eq, summaryByte_fields,
    fun s u n hready hn hu => ⟨fun bits => ?short, fun extra code => ?checkError⟩⟩
  case short =>
    rw [exec_linkShort, execLinkShort, State.transact_ready hready, State.linkError_eq hn hu]
  case checkError =>
    rw [exec_linkCheckError, execLinkCheckError, State.transact_ready hready, State.linkError_eq hn hu]

/-! ### Low periods of a reset (R187, R203) -/

/-- Settles O9: every row of the link is one transaction, which neither low period is. -/
theorem linkIgnoresResetPeriods : Obligations.LinkIgnoresResetPeriods := by
  intro i s hlink
  obtain ⟨f, hf⟩ := exec_onLink hlink
  rw [hf]
  exact ⟨fun h => State.transact_reset h f, fun h k => State.transact_ignoring h k f⟩

/-! ### NOP (R199) -/

/-- Settles O12: the plain reply of NOP, and its transaction of all zeros. -/
theorem nopOnlyAnswers : Obligations.NopOnlyAnswers :=
  ⟨fun s e hready => (exec_nop s e).trans (State.answer_reply hready rfl), decodeTransaction_zeros⟩

end Sys2Proof.Machine
end

section
/-! SUPPORT. Refusals: a reply that refuses leaves the state as it was and carries a zero payload, in every command (R188), and
the channel bytes that name no channel (R191). -/

namespace Sys2Proof.Machine

/-! ### Replies that refuse -/

/-- A reply whose result refuses is the refusal with that result: no effect, a zero payload and no selection. -/
def Reply.Refuses (s : State) (r : Reply) : Prop := r.result.isRefusal = true → r = refuse s r.result

section
variable (s : State)

theorem Reply.refuses_refuse (r : Result) : (refuse s r).Refuses s := fun _ => rfl

theorem Reply.refuses_of_effect {r : Reply} (h : r.result.isRefusal = false) : r.Refuses s :=
  fun hr => absurd hr (by rw [h]; decide)

theorem reply_refuses (t : State) (p : BitVec 160) : (reply t p).Refuses s := Reply.refuses_of_effect s rfl

theorem okOrClamped_isRefusal (b : Bool) : (okOrClamped b).isRefusal = false := by cases b <;> rfl

theorem storedReply_refuses (t : State) (id : Byte) (given n : Nat) : (storedReply t id given n).Refuses s :=
  Reply.refuses_of_effect s (okOrClamped_isRefusal _)

theorem withRecord_refuses (b : Byte) (line : BitVec 32) {f : ChanId → Record → Reply}
    (hf : ∀ (c : ChanId) (r : Record), (f c r).Refuses s) : (withRecord s b line f).Refuses s := by
  unfold withRecord
  split
  · exact Reply.refuses_refuse s _
  split
  · exact Reply.refuses_refuse s _
  · exact hf _ _

theorem onChannel_refuses (b : Byte) {f : ChanId → Reply} (hf : ∀ c : ChanId, (f c).Refuses s) :
    (onChannel s b f).Refuses s := by
  unfold onChannel
  split
  · exact Reply.refuses_refuse s _
  · exact hf _

theorem onSlot_refuses (b : Byte) (slot : BitVec 16) {f : ChanId → SlotId → Reply}
    (hf : ∀ (c : ChanId) (i : SlotId), (f c i).Refuses s) : (onSlot s b slot f).Refuses s := by
  unfold onSlot
  split
  · exact hf _ _
  · exact Reply.refuses_refuse s _

/-! ### The replies of the commands -/

theorem statusReply_refuses (page : Byte) : (statusReply page s).Refuses s := by
  unfold statusReply
  split
  · exact reply_refuses s _ _
  split
  · exact reply_refuses s _ _
  · exact Reply.refuses_refuse s _

theorem getSettingReply_refuses (id : Byte) : (getSettingReply id s).Refuses s := by
  unfold getSettingReply
  split
  · exact reply_refuses s _ _
  · exact Reply.refuses_refuse s _

theorem setPhysLinesReply_refuses (ch : ChanId) (v : BitVec 32) : (setPhysLinesReply ch v s).Refuses s := by
  unfold setPhysLinesReply
  dsimp only
  split
  · exact Reply.refuses_refuse s _
  split
  · exact storedReply_refuses s _ _ _ _
  · exact storedReply_refuses s _ _ _ _

theorem setCadenceSourceReply_refuses (v : BitVec 32) : (setCadenceSourceReply v s).Refuses s := by
  unfold setCadenceSourceReply
  split
  · exact Reply.refuses_refuse s _
  · exact storedReply_refuses s _ _ _ _

theorem setSettingReply_refuses (id : Byte) (v : BitVec 32) : (setSettingReply id v s).Refuses s := by
  unfold setSettingReply
  cases settingOf id with
  | none => exact Reply.refuses_refuse s _
  | some k =>
    cases k with
    | physLines ch => exact setPhysLinesReply_refuses s ch v
    | cadenceSource => exact setCadenceSourceReply_refuses s v
    | _ => exact storedReply_refuses s _ _ _ _

theorem nextReply_refuses (flag b : Byte) (line : BitVec 32) (filter : Byte) :
    (nextReply flag b line filter s).Refuses s := by
  unfold nextReply
  split
  · split
    · exact reply_refuses s _ _
    · exact Reply.refuses_refuse s _
  · exact Reply.refuses_refuse s _

theorem adoptReply_refuses (b : Byte) (line : BitVec 32) (st : Byte) (slot : BitVec 16) :
    (adoptReply b line st slot s).Refuses s := by
  unfold adoptReply
  split
  · split
    · exact Reply.refuses_refuse s _
    split
    · exact Reply.refuses_refuse s _
    split
    · exact Reply.refuses_refuse s _
    split
    · exact Reply.refuses_refuse s _
    · exact Reply.refuses_of_effect s rfl
  · exact Reply.refuses_refuse s _

theorem changeUnlessRetired_refuses (b : Byte) (line : BitVec 32) (f : Record → Record)
    (selects : ChanId → Record → List ChanId) : (changeUnlessRetired b line f selects s).Refuses s := by
  refine withRecord_refuses s b line fun c r => ?_
  split
  · exact Reply.refuses_refuse s _
  · exact Reply.refuses_of_effect s rfl

theorem retireReply_refuses (b : Byte) (line : BitVec 32) : (retireReply b line s).Refuses s := by
  refine withRecord_refuses s b line fun c r => ?_
  split
  · exact Reply.refuses_of_effect s rfl
  · exact Reply.refuses_of_effect s rfl

theorem releaseReply_refuses (b : Byte) (line : BitVec 32) : (releaseReply b line s).Refuses s := by
  refine withRecord_refuses s b line fun c r => ?_
  split
  · exact reply_refuses s _ _
  · exact Reply.refuses_refuse s _

theorem spareReply_refuses (b : Byte) (line : BitVec 32) : (spareReply b line s).Refuses s := by
  refine withRecord_refuses s b line fun c r => ?_
  split
  · exact Reply.refuses_refuse s _
  split
  · exact Reply.refuses_refuse s _
  split
  · exact Reply.refuses_refuse s _
  · exact Reply.refuses_of_effect s rfl

theorem cancelReply_refuses (b : Byte) (line : BitVec 32) : (cancelReply b line s).Refuses s := by
  refine withRecord_refuses s b line fun c r => ?_
  split
  · exact Reply.refuses_of_effect s rfl
  · exact Reply.refuses_refuse s _

theorem spareRestoreReply_refuses (b : Byte) (slot : BitVec 16) : (spareRestoreReply b slot s).Refuses s := by
  refine onSlot_refuses s b slot fun c i => ?_
  split
  · exact Reply.refuses_of_effect s rfl
  · exact Reply.refuses_refuse s _

theorem regionSetReply_refuses (index enabled chans : Byte) (first last : BitVec 32) (cls : Byte) :
    (regionSetReply index enabled chans first last cls s).Refuses s := by
  unfold regionSetReply
  split
  · unfold regionStore
    split
    · exact Reply.refuses_refuse s _
    split
    · exact Reply.refuses_refuse s _
    · exact Reply.refuses_of_effect s (okOrClamped_isRefusal _)
  · exact Reply.refuses_refuse s _

theorem regionGetReply_refuses (index : Byte) : (regionGetReply index s).Refuses s := by
  unfold regionGetReply
  split
  · exact reply_refuses s _ _
  · exact Reply.refuses_refuse s _

theorem classSetReply_refuses (cls : Byte) (tHot tSpare : BitVec 16) (auto wb : Byte) :
    (classSetReply cls tHot tSpare auto wb s).Refuses s := by
  unfold classSetReply
  split
  · exact Reply.refuses_of_effect s (okOrClamped_isRefusal _)
  · exact Reply.refuses_refuse s _

theorem classGetReply_refuses (cls : Byte) : (classGetReply cls s).Refuses s := by
  unfold classGetReply
  split
  · exact reply_refuses s _ _
  · exact Reply.refuses_refuse s _

theorem channelFillReply_refuses (b : Byte) : (channelFillReply b s).Refuses s := by
  refine onChannel_refuses s b fun c => ?_
  split
  · exact Reply.refuses_refuse s _
  split
  · exact Reply.refuses_refuse s _
  · exact Reply.refuses_of_effect s rfl

theorem channelOnlineReply_refuses (b : Byte) : (channelOnlineReply b s).Refuses s := by
  refine onChannel_refuses s b fun c => ?_
  split
  · exact Reply.refuses_refuse s _
  split
  · exact Reply.refuses_refuse s _
  · exact Reply.refuses_of_effect s rfl

theorem channelOfflineReply_refuses (b : Byte) : (channelOfflineReply b s).Refuses s := by
  refine onChannel_refuses s b fun c => ?_
  split
  · exact Reply.refuses_of_effect s rfl
  · exact Reply.refuses_of_effect s rfl
  · split
    · exact Reply.refuses_of_effect s rfl
    · exact Reply.refuses_refuse s _

theorem patrolStartReply_refuses (b mode flag : Byte) (start : BitVec 32) :
    (patrolStartReply b mode flag start s).Refuses s := by
  unfold patrolStartReply
  split
  · split
    · exact Reply.refuses_refuse s _
    split
    · exact Reply.refuses_refuse s _
    split
    · exact Reply.refuses_refuse s _
    · exact Reply.refuses_of_effect s rfl
  · exact Reply.refuses_refuse s _

theorem setPhaseReply_refuses (b : Byte) : (setPhaseReply b s).Refuses s := by
  unfold setPhaseReply
  split
  · exact reply_refuses s _ _
  · exact Reply.refuses_refuse s _

theorem profileSetReply_refuses (b : Byte) (mask : BitVec 32) (ops : Byte) :
    (profileSetReply b mask ops s).Refuses s := by
  unfold profileSetReply
  split
  · exact Reply.refuses_of_effect s (okOrClamped_isRefusal _)
  · exact Reply.refuses_refuse s _

theorem profileGetReply_refuses (b : Byte) : (profileGetReply b s).Refuses s := by
  unfold profileGetReply
  split
  · exact reply_refuses s _ _
  · exact Reply.refuses_refuse s _

theorem alertAckReply_refuses (k : BitVec 16) : (alertAckReply k s).Refuses s := by
  unfold alertAckReply
  split
  · exact reply_refuses s _ _
  · exact Reply.refuses_refuse s _

end

/-! ### Transactions that refuse -/

theorem State.selectAll_response (s : State) (l : List ChanId) : (s.selectAll l).response = s.response := by
  induction l generalizing s with
  | nil => rfl
  | cons c l ih => exact (ih (s.select c)).trans (s.select_spec c).1.response_eq

theorem State.answer_refused {s t : State} (hready : s.LinkReady) {e : Nat} {code : Byte} {f : State → Reply}
    (hf : (f s).Refuses s) (h : s.answer e code f = .next t) (ht : t.response.result.isRefusal = true) :
    t = s.withAnswer s e t.response.code t.response.result 0 := by
  rw [State.answer_ready hready] at h
  injection h with h
  have hresponse : t.response = ((f s).state.withAnswer s e code (f s).result (f s).payload).response := by
    rw [← h, State.selectAll_response]
  have hresult : (f s).result = t.response.result := by rw [hresponse]; rfl
  have hcode : code = t.response.code := by rw [hresponse]; rfl
  rw [hf (hresult ▸ ht), hresult, hcode] at h
  exact h.symm

/-- Every row of the link is a link error, or a command that refuses without effect or takes effect. -/
theorem exec_linkError_or_answer {i : Instr} (h : onLink i = true) (s : State) :
    (∃ bits code r, exec i s = s.transact (fun t => t.linkError bits code r) ∧ r.isRefusal = false) ∨
      ∃ code f, exec i s = s.answer i.extra code f ∧ (f s).Refuses s := by
  cases i with
  | linkShort => exact .inl ⟨_, _, _, rfl, rfl⟩
  | linkCheckError => exact .inl ⟨_, _, _, rfl, rfl⟩
  | unknown => exact .inr ⟨_, _, exec_unknown .., Reply.refuses_refuse s _⟩
  | nop => exact .inr ⟨_, _, exec_nop .., reply_refuses s _ _⟩
  | alertRead => exact .inr ⟨_, _, exec_alertRead .., reply_refuses s _ _⟩
  | spareQuery => exact .inr ⟨_, _, exec_spareQuery .., onChannel_refuses s _ fun _ => reply_refuses s _ _⟩
  | captureRead => exact .inr ⟨_, _, exec_captureRead .., onChannel_refuses s _ fun _ => reply_refuses s _ _⟩
  | captureClear => exact .inr ⟨_, _, exec_captureClear .., onChannel_refuses s _ fun _ => reply_refuses s _ _⟩
  | countsRead => exact .inr ⟨_, _, exec_countsRead .., onChannel_refuses s _ fun _ => reply_refuses s _ _⟩
  | countsClear => exact .inr ⟨_, _, exec_countsClear .., onChannel_refuses s _ fun _ => reply_refuses s _ _⟩
  | patrolHalt =>
    exact .inr ⟨_, _, exec_patrolHalt .., onChannel_refuses s _ fun _ => Reply.refuses_of_effect s rfl⟩
  | spareSlot => exact .inr ⟨_, _, exec_spareSlot .., onSlot_refuses s _ _ fun _ _ => reply_refuses s _ _⟩
  | status => exact .inr ⟨_, _, rfl, statusReply_refuses s _⟩
  | getSetting => exact .inr ⟨_, _, rfl, getSettingReply_refuses s _⟩
  | setSetting => exact .inr ⟨_, _, rfl, setSettingReply_refuses s _ _⟩
  | setPhysLines => exact .inr ⟨_, _, rfl, setPhysLinesReply_refuses s _ _⟩
  | setCadenceSource => exact .inr ⟨_, _, rfl, setCadenceSourceReply_refuses s _⟩
  | setCadenceTimeout => exact .inr ⟨_, _, rfl, storedReply_refuses s _ _ _ _⟩
  | setFocusInterval => exact .inr ⟨_, _, rfl, storedReply_refuses s _ _ _ _⟩
  | setAlertMask => exact .inr ⟨_, _, rfl, storedReply_refuses s _ _ _ _⟩
  | softReset => exact .inr ⟨_, _, rfl, Reply.refuses_of_effect s rfl⟩
  | lookup => exact .inr ⟨_, _, rfl, withRecord_refuses s _ _ fun _ _ => Reply.refuses_of_effect s rfl⟩
  | next => exact .inr ⟨_, _, rfl, nextReply_refuses s _ _ _ _⟩
  | adopt => exact .inr ⟨_, _, rfl, adoptReply_refuses s _ _ _ _⟩
  | pin => exact .inr ⟨_, _, rfl, changeUnlessRetired_refuses s _ _ _ _⟩
  | unpin => exact .inr ⟨_, _, rfl, changeUnlessRetired_refuses s _ _ _ _⟩
  | clearHold => exact .inr ⟨_, _, rfl, changeUnlessRetired_refuses s _ _ _ _⟩
  | retire => exact .inr ⟨_, _, rfl, retireReply_refuses s _ _⟩
  | release => exact .inr ⟨_, _, rfl, releaseReply_refuses s _ _⟩
  | spare => exact .inr ⟨_, _, rfl, spareReply_refuses s _ _⟩
  | cancel => exact .inr ⟨_, _, rfl, cancelReply_refuses s _ _⟩
  | spareRestore => exact .inr ⟨_, _, rfl, spareRestoreReply_refuses s _ _⟩
  | regionSet => exact .inr ⟨_, _, rfl, regionSetReply_refuses s _ _ _ _ _ _⟩
  | regionGet => exact .inr ⟨_, _, rfl, regionGetReply_refuses s _⟩
  | classSet => exact .inr ⟨_, _, rfl, classSetReply_refuses s _ _ _ _ _⟩
  | classGet => exact .inr ⟨_, _, rfl, classGetReply_refuses s _⟩
  | channelFill => exact .inr ⟨_, _, rfl, channelFillReply_refuses s _⟩
  | channelOnline => exact .inr ⟨_, _, rfl, channelOnlineReply_refuses s _⟩
  | channelOffline => exact .inr ⟨_, _, rfl, channelOfflineReply_refuses s _⟩
  | patrolStart => exact .inr ⟨_, _, rfl, patrolStartReply_refuses s _ _ _ _⟩
  | setPhase => exact .inr ⟨_, _, rfl, setPhaseReply_refuses s _⟩
  | profileSet => exact .inr ⟨_, _, rfl, profileSetReply_refuses s _ _ _⟩
  | profileGet => exact .inr ⟨_, _, rfl, profileGetReply_refuses s _⟩
  | alertAck => exact .inr ⟨_, _, rfl, alertAckReply_refuses s _⟩
  | _ => exact Bool.noConfusion h

/-- Settles O10: a link error answers no refusal, and every command refuses without effect. -/
theorem refusedCommandsChangeNothing : Obligations.RefusedCommandsChangeNothing := by
  intro i s t hlink hready h ht
  rcases exec_linkError_or_answer hlink s with ⟨bits, code, r, hi, hr⟩ | ⟨code, f, hi, hf⟩
  · rw [hi, State.transact_ready hready] at h
    injection h with h
    have hresult : t.response.result = r := by rw [← h]; rfl
    rw [hresult, hr] at ht
    cases ht
  · exact State.answer_refused hready hf (hi ▸ h) ht

/-! ### Channel bytes above 3 (R191) -/

section
variable {b : Byte} (hb : 4 ≤ b.toNat) (s : State)
include hb

theorem adoptReply_badChannel (line : BitVec 32) (st : Byte) (slot : BitVec 16) :
    adoptReply b line st slot s = refuse s .range := by
  unfold adoptReply
  rw [channelArg_of_four_le hb]

theorem patrolStartReply_badChannel (mode flag : Byte) (start : BitVec 32) :
    patrolStartReply b mode flag start s = refuse s .range := by
  unfold patrolStartReply
  rw [channelArg_of_four_le hb]

end

/-- Settles O11: the first check of each of these commands is its channel. -/
theorem channelByteAboveThreeIsRange : Obligations.ChannelByteAboveThreeIsRange := by
  intro s e b x y z l h hready hb
  have hrecord : ∀ f : ChanId → Record → Reply, withRecord s b l f = refuse s .range := withRecord_range hb l
  have hchannel : ∀ f : ChanId → Reply, onChannel s b f = refuse s .range := onChannel_range hb
  have hslot : ∀ f : ChanId → SlotId → Reply, onSlot s b h f = refuse s .range := onSlot_range hb h
  have answered {code : Byte} {f : State → Reply} (hf : f s = refuse s .range) :
      s.answer e code f = .next (s.withAnswer s e code .range 0) := State.answer_refuse hready hf
  refine ⟨answered (hrecord _), answered (adoptReply_badChannel hb s l x h), answered (hrecord _), answered (hrecord _),
    answered (hrecord _), answered (hrecord _), answered (hrecord _), answered (hrecord _), answered (hrecord _),
    ?spareQuery, ?spareSlot, answered (hslot _), answered (hchannel _), answered (hchannel _), answered (hchannel _),
    answered (patrolStartReply_badChannel hb s y z l), ?patrolHalt, ?captureRead, ?captureClear, ?countsRead,
    ?countsClear⟩
  case spareQuery => exact (exec_spareQuery ..).trans (answered (hchannel _))
  case spareSlot => exact (exec_spareSlot ..).trans (answered (hslot _))
  case patrolHalt => exact (exec_patrolHalt ..).trans (answered (hchannel _))
  case captureRead => exact (exec_captureRead ..).trans (answered (hchannel _))
  case captureClear => exact (exec_captureClear ..).trans (answered (hchannel _))
  case countsRead => exact (exec_countsRead ..).trans (answered (hchannel _))
  case countsClear => exact (exec_countsClear ..).trans (answered (hchannel _))

end Sys2Proof.Machine
end

section
/-! SUPPORT. The payloads that show state: the pages of STATUS, the record readout and the capture readout (R193, R197, R198). -/

namespace Sys2Proof.Machine

/-! ### Flags -/

theorem getLsbD_ofBool (b : Bool) : (BitVec.ofBool b).getLsbD 0 = b := by cases b <;> rfl

/-- A flag above w bits is bit w. -/
theorem getLsbD_ofBool_append {w : Nat} (b : Bool) (x : BitVec w) : (BitVec.ofBool b ++ x).getLsbD w = b := by
  rw [BitVec.getLsbD_append, if_neg (Nat.lt_irrefl w), Nat.sub_self, getLsbD_ofBool]

/-! ### The pages of STATUS (R197, R198) -/

/-- Two bits of each channel, found by passing over the channels above it. -/
theorem packTwo_extract (f : ChanId → BitVec 2) (ch : ChanId) : (packTwo f).extractLsb' (2 * ch.val) 2 = f ch := by
  unfold packTwo
  match ch with
  | 3 => exact BitVec.extractLsb'_append_eq_left
  | 2 | 1 =>
    repeat rw [BitVec.extractLsb'_append_eq_of_add_le (by decide)]
    exact BitVec.extractLsb'_append_eq_left
  | 0 =>
    repeat rw [BitVec.extractLsb'_append_eq_of_add_le (by decide)]
    exact BitVec.extractLsb'_eq_self

section
variable (s : State)

/-- The byte of the device page that shows which Migration Units are busy. -/
def busyByte : Byte :=
  0#4 ++ (BitVec.ofBool (s.chan 3).migration.isSome ++ (BitVec.ofBool (s.chan 2).migration.isSome ++
    (BitVec.ofBool (s.chan 1).migration.isSome ++ BitVec.ofBool (s.chan 0).migration.isSome)))

theorem busyByte_bits :
    (∀ ch : ChanId, (busyByte s).getLsbD ch.val = (s.chan ch).migration.isSome) ∧ (busyByte s).extractLsb' 4 4 = 0 := by
  unfold busyByte
  refine ⟨fun ch => ?_, BitVec.extractLsb'_append_eq_left⟩
  match ch with
  | 3 | 2 | 1 =>
    repeat rw [BitVec.getLsbD_append, if_pos (by decide)]
    exact getLsbD_ofBool_append _ _
  | 0 =>
    repeat rw [BitVec.getLsbD_append, if_pos (by decide)]
    exact getLsbD_ofBool _

/-- Each item is found by passing over the items before it. -/
theorem devicePage_fields :
    payloadByte (devicePage s) 0 = s.cadence.activePhase.byte ∧
      payloadByte (devicePage s) 1 = (match s.cadence.pendingPhase with | some q => q.byte | none => 0xFF#8) ∧
      payloadByte (devicePage s) 2 = s.cadence.activeSource.byte ∧
      payloadByte (devicePage s) 3 = (match s.cadence.slotIndex with | some i => BitVec.ofNat 8 i | none => 0xFF#8) ∧
      payloadHalf (devicePage s) 4 = s.causes.setWidth 16 ∧
      payloadByte (devicePage s) 6 = BitVec.ofNat 8 s.linkErrors ∧
      payloadHalf (devicePage s) 7 = BitVec.ofNat 16 s.table.length ∧
      payloadByte (devicePage s) 9 = packTwo (fun c => (s.chan c).state.code) ∧
      payloadByte (devicePage s) 10 = packTwo (fun c => (s.chan c).patrol.state.code) ∧
      payloadByte (devicePage s) 11 = busyByte s ∧ (devicePage s).extractLsb' 0 64 = 0 := by
  unfold payloadByte payloadHalf devicePage
  refine ⟨?_, ?_, ?_, ?_, ?_, ?_, ?_, ?_, ?_, ?_, ?rest⟩
  case rest =>
    repeat rw [BitVec.extractLsb'_append_eq_of_add_le (by decide)]
    rfl
  all_goals
    repeat rw [BitVec.extractLsb'_append_eq_of_add_le (by decide)]
    exact BitVec.extractLsb'_append_eq_left

theorem channelPage_fields (ch : ChanId) (c : Channel) :
    payloadByte (channelPage ch c) 0 = ChanId.byte ch ∧
      payloadByte (channelPage ch c) 1 = c.state.code.setWidth 8 ∧
      payloadQuad (channelPage ch c) 2 = BitVec.ofNat 32 c.fillProgress ∧
      payloadByte (channelPage ch c) 6 = c.patrol.state.code.setWidth 8 ∧
      payloadByte (channelPage ch c) 7 = c.patrol.mode.byte ∧
      payloadQuad (channelPage ch c) 8 = BitVec.ofNat 32 c.patrol.position ∧
      payloadHalf (channelPage ch c) 12 = BitVec.ofNat 16 c.patrol.pass ∧
      payloadByte (channelPage ch c) 14 = yesNoByte c.migration.isSome ∧
      payloadByte (channelPage ch c) 15 = BitVec.ofNat 8 c.queue.length ∧
      payloadByte (channelPage ch c) 16 = BitVec.ofNat 8 c.budget ∧ (channelPage ch c).extractLsb' 0 24 = 0 := by
  unfold payloadByte payloadHalf payloadQuad channelPage
  refine ⟨?_, ?_, ?_, ?_, ?_, ?_, ?_, ?_, ?_, ?_, ?rest⟩
  case rest =>
    repeat rw [BitVec.extractLsb'_append_eq_of_add_le (by decide)]
    rfl
  all_goals
    repeat rw [BitVec.extractLsb'_append_eq_of_add_le (by decide)]
    exact BitVec.extractLsb'_append_eq_left

theorem statusReply_channel (ch : ChanId) :
    statusReply (BitVec.ofNat 8 (1 + ch.val)) s = reply s (channelPage ch (s.chan ch)) := by
  have hpage : ∀ c : ChanId, BitVec.ofNat 8 (1 + c.val) ≠ 0 ∧ channelArg (BitVec.ofNat 8 (1 + c.val) - 1) = some c := by
    decide
  obtain ⟨hne, harg⟩ := hpage ch
  rw [statusReply, if_neg hne, harg]

theorem statusReply_range {page : Byte} (h : 5 ≤ page.toNat) : statusReply page s = refuse s .range := by
  have hne : page ≠ 0 := fun h0 => by
    rw [h0] at h
    exact absurd h (by decide)
  have hpast : 4 ≤ (page - 1).toNat := by bv_omega
  rw [statusReply, if_neg hne, channelArg_of_four_le hpast]

end

/-- Settles O13: the device page, the pages of the channels, and the pages beyond. -/
theorem statusPages : Obligations.StatusPages := by
  intro s e hready
  refine ⟨⟨devicePage s, State.answer_reply hready rfl, ?device⟩,
    fun ch => ⟨_, State.answer_reply hready (statusReply_channel s ch), channelPage_fields ch (s.chan ch)⟩,
    fun page h => State.answer_refuse hready (statusReply_range s h)⟩
  case device =>
    obtain ⟨hphase, hpending, hsource, hslot, hcauses, herrors, hrecords, hstates, hpatrols, hbusy, hrest⟩ :=
      devicePage_fields s
    obtain ⟨hbits, hzero⟩ := busyByte_bits s
    refine ⟨hphase, hpending, hsource, hslot, hcauses, herrors, hrecords, fun ch => ?_, fun ch => ?_, ?_, ?_, hrest⟩
    · rw [hstates, packTwo_extract]
    · rw [hpatrols, packTwo_extract]
    · rwa [hbusy]
    · rwa [hbusy]

/-! ### The record readout (R193) -/

section
variable (r : Record)

theorem recordReadout_fields :
    payloadByte (recordReadout r) 0 = ChanId.byte r.key.channel ∧
      payloadQuad (recordReadout r) 1 = BitVec.ofNat 32 r.key.line ∧
      payloadByte (recordReadout r) 5 = r.state.byte ∧
      payloadHalf (recordReadout r) 6 = BitVec.ofNat 16 r.score ∧
      payloadByte (recordReadout r) 8 = bitField r.lastBit ∧
      payloadByte (recordReadout r) 9 = BitVec.ofNat 8 r.rep ∧
      payloadByte (recordReadout r) 10 = BitVec.ofNat 8 r.age ∧
      payloadByte (recordReadout r) 11 = r.poison ∧
      payloadHalf (recordReadout r) 12 = slotField r.spareSlot ∧
      payloadHalf (recordReadout r) 14 = slotField r.targetSlot ∧
      payloadByte (recordReadout r) 16 = recordFlags r ∧ (recordReadout r).extractLsb' 0 24 = 0 := by
  unfold payloadByte payloadHalf payloadQuad recordReadout
  refine ⟨?_, ?_, ?_, ?_, ?_, ?_, ?_, ?_, ?_, ?_, ?_, ?rest⟩
  case rest =>
    repeat rw [BitVec.extractLsb'_append_eq_of_add_le (by decide)]
    rfl
  all_goals
    repeat rw [BitVec.extractLsb'_append_eq_of_add_le (by decide)]
    exact BitVec.extractLsb'_append_eq_left

theorem recordFlags_fields :
    (recordFlags r).getLsbD 7 = r.pinned ∧ (recordFlags r).getLsbD 6 = r.hold ∧
      (recordFlags r).getLsbD 5 = r.spareWanted ∧ (recordFlags r).extractLsb' 3 2 = r.origin.code ∧
      (recordFlags r).extractLsb' 1 2 = priorCode r.priorState ∧ (recordFlags r).getLsbD 0 = false := by
  unfold recordFlags
  refine ⟨?_, ?_, ?_, ?origin, ?prior, ?zero⟩
  case origin | prior =>
    repeat rw [BitVec.extractLsb'_append_eq_of_add_le (by decide)]
    exact BitVec.extractLsb'_append_eq_left
  case zero =>
    repeat rw [BitVec.getLsbD_append, if_pos (by decide)]
    rfl
  all_goals
    repeat rw [BitVec.getLsbD_append, if_pos (by decide)]
    exact getLsbD_ofBool_append _ _

end

/-! ### The capture readout (R193) -/

/-- The byte of the capture readout that says whether there is a tag and whether there is a slot. -/
def Capture.presence (k : Capture) : Byte := 0#6 ++ (BitVec.ofBool k.slot.isSome ++ BitVec.ofBool k.tag.isSome)

section
variable (ch : ChanId) (k : Capture)

theorem captureReadout_fields {p : BitVec 160} (hp : p = captureReadout ch (some k)) :
    payloadByte p 0 = 1 ∧ payloadByte p 1 = k.outcome.byte ∧ payloadByte p 2 = k.source.byte ∧
      payloadByte p 3 = ChanId.byte ch ∧ payloadQuad p 4 = BitVec.ofNat 32 k.line ∧
      payloadByte p 8 = BitVec.ofNat 8 k.codeword.val ∧ payloadByte p 9 = bitField k.bit ∧
      payloadByte p 10 = k.syndrome ∧ payloadByte p 11 = k.tag.getD 0 ∧ payloadByte p 12 = k.presence ∧
      payloadByte p 13 = k.cls.byte ∧ payloadHalf p 14 = slotField k.slot ∧ p.extractLsb' 0 32 = 0 := by
  subst hp
  unfold payloadByte payloadHalf payloadQuad captureReadout
  refine ⟨?_, ?_, ?_, ?_, ?_, ?_, ?_, ?_, ?_, ?_, ?_, ?_, ?rest⟩
  case rest =>
    repeat rw [BitVec.extractLsb'_append_eq_of_add_le (by decide)]
    rfl
  all_goals
    repeat rw [BitVec.extractLsb'_append_eq_of_add_le (by decide)]
    exact BitVec.extractLsb'_append_eq_left

theorem Capture.presence_fields : k.presence.getLsbD 0 = k.tag.isSome ∧ k.presence.getLsbD 1 = k.slot.isSome ∧
    k.presence.extractLsb' 2 6 = 0 := by
  unfold Capture.presence
  refine ⟨?_, ?_, BitVec.extractLsb'_append_eq_left⟩
  all_goals repeat rw [BitVec.getLsbD_append, if_pos (by decide)]
  · exact getLsbD_ofBool _
  · exact getLsbD_ofBool_append _ _

end

/-- Settles O20: the fields of both readouts, with the codes that R191 gives. -/
theorem recordReadoutFields : Obligations.RecordReadoutFields := by
  refine ⟨fun r => ?record, fun ch => ⟨rfl, fun k p hp => ?capture⟩⟩
  case record =>
    obtain ⟨hchannel, hline, hstate, hscore, hbit, hrep, hage, hpoison, hspare, htarget, hflags, hrest⟩ :=
      recordReadout_fields r
    obtain ⟨hpinned, hhold, hwanted, horigin, hprior, hzero⟩ := recordFlags_fields r
    rw [hflags]
    refine ⟨hchannel, hline, hstate.trans ?_, hscore, hbit.trans ?_, hrep, hage, hpoison, hspare.trans ?_,
      htarget.trans ?_, hpinned, hhold, hwanted, horigin.trans ?_, hprior.trans ?_, hzero, hrest⟩
    all_goals rfl
  case capture =>
    obtain ⟨hfull, houtcome, hsource, hchannel, hline, hcw, hbit, hsyndrome, htag, hpresence, hcls, hslot, hrest⟩ :=
      captureReadout_fields ch k hp
    obtain ⟨htagged, hslotted, hzero⟩ := k.presence_fields
    rw [hpresence]
    refine ⟨hfull, houtcome.trans ?_, hsource.trans ?_, hchannel, hline, hcw, hbit.trans ?_, hsyndrome, htag.trans ?tag,
      htagged, hslotted, hzero, hcls.trans ?cls, hslot.trans ?_, hrest⟩
    case tag => cases k.tag <;> rfl
    case cls => cases k.cls <;> rfl
    all_goals rfl

end Sys2Proof.Machine
end

section
/-! SUPPORT. GET_SETTING of every setting, SET_SETTING of the numeric settings that act on nothing by themselves, and the
identifiers outside the table (R185, R194 to R196). -/

namespace Sys2Proof.Machine

/-! ### Identifiers (R194) -/

/-- The identifiers that the settings table gives (R194). -/
def settingIdentifiers : List Byte :=
  [0x00, 0x01, 0x02, 0x03, 0x10, 0x11, 0x12, 0x18, 0x20, 0x21, 0x22, 0x23, 0x24, 0x30, 0x31]

theorem settingOf_eq_none {id : Byte} (h : id ∉ settingIdentifiers) : settingOf id = none := by
  unfold settingOf
  split
  case h_16 => rfl
  all_goals next hid => exact absurd (ofNat_mem_of_toNat_eq hid (by decide)) h

section
variable {s : State} {id : Byte}

theorem getSettingReply_some {k : SettingId} (h : settingOf id = some k) :
    getSettingReply id s = reply s (settingReadout id (s.settingValue k)) := by
  rw [getSettingReply, h]

theorem getSettingReply_none (h : settingOf id = none) : getSettingReply id s = refuse s .range := by
  rw [getSettingReply, h]

theorem setSettingReply_none (h : settingOf id = none) (v : BitVec 32) : setSettingReply id v s = refuse s .range := by
  rw [setSettingReply, h]

/-- A numeric setting is stored brought into its range (R196). -/
theorem storeNumber_eq {lo hi n : Nat} {v : BitVec 32} (hn : n = min hi (max lo v.toNat))
    (set : Settings → Nat → Settings) : storeNumber id lo hi set v s =
      { state := { s with settings := set s.settings n }, result := if n = v.toNat then .ok else .clamped
        payload := settingReadout id n, selects := [] } := by
  have hclamp : clampTo lo hi v.toNat = n := hn.symm
  rw [storeNumber, hclamp, storedReply_eq]
  rfl

end

/-- Settles O14: each identifier's setting, the identifiers that name none, and the codes that name no command. -/
theorem getSettingReadsAndUnknownAnswers : Obligations.GetSettingReadsAndUnknownAnswers := by
  intro s e hready
  refine ⟨fun id v h => ?read, fun id h => State.answer_refuse hready (getSettingReply_none (settingOf_eq_none h)),
    fun code => (exec_unknown ..).trans (State.answer_refuse hready rfl)⟩
  case read =>
    have hread : ∀ k : SettingId, settingOf id = some k → v = s.settingValue k → exec (.getSetting e id) s =
        .next (s.withAnswer s e 0x02 .ok (id ++ (BitVec.ofNat 32 v ++ 0#120))) := by
      rintro k hk rfl
      exact State.answer_reply hready (getSettingReply_some hk)
    rcases h with ⟨ch, rfl, hv⟩ | ⟨rfl, hv⟩ | ⟨rfl, hv⟩ | ⟨rfl, hv⟩ | ⟨rfl, hv⟩ | ⟨rfl, hv⟩ | ⟨rfl, hv⟩ | ⟨rfl, hv⟩ |
      ⟨rfl, hv⟩ | ⟨rfl, hv⟩ | ⟨rfl, hv⟩ | ⟨rfl, hv⟩
    · exact hread (.physLines ch) (settingOf_physLines ch) hv
    · exact hread .wCe rfl hv
    · exact hread .wRepeat rfl hv
    · exact hread .decayShift rfl hv
    · exact hread .focusInterval rfl hv
    · exact hread .cadenceSource rfl hv
    · exact hread .slotLen rfl hv
    · exact hread .slotCount rfl hv
    · exact hread .cadenceTimeout rfl hv
    · exact hread .yieldLevel rfl hv
    · exact hread .alertMask rfl hv
    · exact hread .linkErrorLimit rfl hv

/-- Settles O15: each numeric setting's range and field, and the identifiers that name none. -/
theorem numericSettingsAreStored : Obligations.NumericSettingsAreStored := by
  intro s e v hready
  refine ⟨fun id lo hi n c hn h => ?stored,
    fun id h => State.answer_refuse hready (setSettingReply_none (settingOf_eq_none h) v)⟩
  case stored =>
    have hstored : ∀ set : Settings → Nat → Settings, setSettingReply id v s = storeNumber id lo hi set v s →
        c = set s.settings n → exec (.setSetting e id v) s = .next (State.withAnswer { s with settings := c } s e 0x03
          (if n = v.toNat then .ok else .clamped) (id ++ (BitVec.ofNat 32 n ++ 0#120))) := by
      rintro set hset rfl
      exact State.answer_plain hready (hset.trans (storeNumber_eq hn set))
    rcases h with ⟨rfl, rfl, rfl, hc⟩ | ⟨rfl, rfl, rfl, hc⟩ | ⟨rfl, rfl, rfl, hc⟩ | ⟨rfl, rfl, rfl, hc⟩ |
      ⟨rfl, rfl, rfl, hc⟩ | ⟨rfl, rfl, rfl, hc⟩ | ⟨rfl, rfl, rfl, hc⟩
    · exact hstored (fun c n => { c with wCe := n }) rfl hc
    · exact hstored (fun c n => { c with wRepeat := n }) rfl hc
    · exact hstored (fun c n => { c with decayShift := n }) rfl hc
    · exact hstored (fun c n => { c with slotLen := n }) rfl hc
    · exact hstored (fun c n => { c with slotCount := n }) rfl hc
    · exact hstored (fun c n => { c with yieldLevel := n }) rfl hc
    · exact hstored (fun c n => { c with linkErrorLimit := n }) rfl hc

end Sys2Proof.Machine
end

section
/-! SUPPORT. SOFT_RESET, block by block: the migrations abandoned, what each channel restarts with, the frame that begins, and the
selections that follow the response (R18, R32, R72, R78, R91, R95, R104, R114, R115, R138, R142, R147, R163, R165, R180, R200). -/

namespace Sys2Proof.Machine

/-! ### The migrations abandoned (R32, R165) -/

/-- A channel whose migration, if one stands, is abandoned and its target slot made FREE. -/
def Channel.abandon (c : Channel) : Channel :=
  match c.migration with
  | none   => c
  | some m => Channel.setSlot { c with migration := none, flights := markLate c.flights } m.target .free

theorem State.cancelMigration_chan (s : State) (ch : ChanId) (b : Bool) :
    (s.cancelMigration ch b).chan ch = (s.chan ch).abandon := by
  unfold Channel.abandon
  cases hm : (s.chan ch).migration with
  | none => rw [State.cancelMigration, hm]
  | some m =>
    rw [State.cancelMigration_eq hm, State.unitFreed, State.chan_modChan_same, State.chan_dropMigration,
      map_endMigration]

/-- An operation that works on one channel at a time, taken on several channels, works on each as it stood. -/
theorem State.foldl_chan {op : State → ChanId → State} {F : Channel → Channel}
    (hsame : ∀ (s : State) (c : ChanId), (op s c).chan c = F (s.chan c))
    (hothers : ∀ (s : State) (c d : ChanId), d ≠ c → (op s c).chan d = s.chan d) {l : List ChanId} (hl : l.Nodup)
    (s : State) (c : ChanId) : (l.foldl op s).chan c = if c ∈ l then F (s.chan c) else s.chan c := by
  induction l generalizing s with
  | nil => rfl
  | cons x xs ih =>
    obtain ⟨hx, hxs⟩ := List.nodup_cons.mp hl
    rw [List.foldl_cons, ih hxs]
    by_cases hc : c = x
    · subst hc
      rw [if_neg hx, if_pos List.mem_cons_self, hsame]
    · simp only [List.mem_cons, hc, false_or, hothers s x c hc]

theorem State.abandonAll_chan (s : State) (ch : ChanId) :
    s.abandonAll.chan ch = Channel.abandon { s.chan ch with wbq := [] } := by
  unfold State.abandonAll
  rw [State.foldl_chan (fun t c => t.cancelMigration_chan c false)
    (fun t c d hd => (t.cancelMigration_onlyChannel c false).1.2 d hd) (List.nodup_finRange 4),
    if_pos (List.mem_finRange ch), State.chan_modAllChans]

/-- The migrations' ends change nothing but the table and the channels. -/
theorem State.foldl_cancel_frame (l : List ChanId) (s t : State)
    (ht : t = l.foldl (fun t ch => t.cancelMigration ch false) s) : t = { s with table := t.table, chans := t.chans } := by
  induction l generalizing s with
  | nil => rw [ht]; rfl
  | cons c l ih =>
    obtain ⟨honly, hcauses⟩ := s.cancelMigration_onlyChannel c false
    refine (ih (s.cancelMigration c false) ht).trans ?_
    rw [honly.frame hcauses]

theorem State.abandonAll_frame (s : State) :
    s.abandonAll = { s with table := s.abandonAll.table, chans := s.abandonAll.chans } :=
  State.foldl_cancel_frame _ (s.modAllChans (fun c => { c with wbq := [] })) _ rfl

/-- Whether a migration of the line of a record stands. -/
def State.worksOn (s : State) (r : Record) : Bool :=
  decide ((s.chan r.key.channel).migration.map (fun m => m.line) = some r.key.line)

/-- The record that a migration works on returns to its prior state (R32). -/
theorem State.cancelMigration_table (s : State) (ch : ChanId) :
    (s.cancelMigration ch false).table = s.table.map (fun r =>
      if r.key.channel = ch ∧ s.worksOn r = true then r.leaveSparing false else r) := by
  cases hm : (s.chan ch).migration with
  | none =>
    have hnone : ∀ r : Record, ¬ (r.key.channel = ch ∧ s.worksOn r = true) := by
      rintro r ⟨rfl, hr⟩
      simp [State.worksOn, hm] at hr
    simp only [State.cancelMigration, hm, hnone, if_false, List.map_id']
  | some m =>
    have hkey : ∀ r : Record, (r.key = { channel := ch, line := m.line }) ↔ r.key.channel = ch ∧ s.worksOn r = true := by
      intro r
      constructor
      · intro h
        simp [State.worksOn, h, hm]
      · rintro ⟨rfl, hr⟩
        have hline : m.line = r.key.line := by simpa [State.worksOn, hm] using hr
        rw [hline]
    simp only [State.cancelMigration_eq hm, State.unitFreed_table, updateRec, hkey]

theorem State.foldl_cancel_table {l : List ChanId} (hl : l.Nodup) (s : State) :
    (l.foldl (fun t ch => t.cancelMigration ch false) s).table = s.table.map (fun r =>
      if r.key.channel ∈ l ∧ s.worksOn r = true then r.leaveSparing false else r) := by
  induction l generalizing s with
  | nil => simp
  | cons x xs ih =>
    obtain ⟨hx, hxs⟩ := List.nodup_cons.mp hl
    rw [List.foldl_cons, ih hxs, State.cancelMigration_table, List.map_map]
    refine List.map_congr_left fun r _ => ?_
    rw [Function.comp_apply]
    by_cases hr : r.key.channel = x
    · have hkey : (if r.key.channel = x ∧ s.worksOn r = true then r.leaveSparing false else r).key = r.key := by
        split <;> rfl
      rw [hkey, if_neg fun h => hx (hr ▸ h.1)]
      simp only [hr, List.mem_cons_self]
    · have hworks : (s.cancelMigration x false).worksOn r = s.worksOn r := by
        rw [State.worksOn, (s.cancelMigration_onlyChannel x false).1.2 _ hr, ← State.worksOn]
      simp only [hr, false_and, if_false, hworks, List.mem_cons, false_or]

theorem State.abandonAll_table (s : State) :
    s.abandonAll.table = s.table.map (fun r => if s.worksOn r = true then r.leaveSparing false else r) := by
  have hworks : ∀ r : Record, (s.modAllChans (fun c => { c with wbq := [] })).worksOn r = s.worksOn r := fun r => by
    rw [State.worksOn, State.chan_modAllChans, ← State.worksOn]
  unfold State.abandonAll
  simp only [State.foldl_cancel_table (List.nodup_finRange 4), hworks, List.mem_finRange, true_and,
    State.modAllChans_table]

/-- In a sound state the records that leave SPARING are those that stand in it (R29). -/
theorem State.SparingSound.worksOn_iff {s : State} (hs : s.SparingSound) {r : Record} (hr : r ∈ s.table) :
    s.worksOn r = true ↔ r.state = .sparing := by
  rw [hs.idle_of hr, Migration.map_place_line, State.worksOn, decide_eq_true_eq]

theorem Record.leaveSparing_false (r : Record) : r.leaveSparing false = { r with
    state := (match r.priorState with | some .spared => .spared | _ => .hot), targetSlot := none, priorState := none } := by
  unfold Record.leaveSparing
  rw [Bool.or_false]
  cases r.priorState with
  | none => rfl
  | some p => cases p <;> rfl

theorem State.SparingSound.abandonAll_table {s : State} (hs : s.SparingSound) :
    s.abandonAll.table = s.table.map (fun r => if r.state = .sparing then { r with
      state := (match r.priorState with | some .spared => .spared | _ => .hot)
      targetSlot := none, priorState := none } else r) := by
  rw [State.abandonAll_table]
  refine List.map_congr_left fun r hr => ?_
  simp only [hs.worksOn_iff hr, Record.leaveSparing_false]

theorem State.abandonAll_keys (s : State) :
    s.abandonAll.table.map (fun r => r.key) = s.table.map (fun r => r.key) := by
  rw [State.abandonAll_table, List.map_map]
  refine List.map_congr_left fun r _ => ?_
  rw [Function.comp_apply]
  split <;> rfl

/-! ### What each channel restarts with (R78, R91, R95, R104, R114, R115, R142, R163, R180) -/

/-- A channel at SOFT_RESET, its migration abandoned and its queue emptied, before the frame begins. -/
def Channel.restarted (c : Channel) : Channel := (Channel.abandon { c with wbq := [] }).softReset

/-- The held offers that SOFT_RESET offers again: those not at a target slot that becomes FREE (R114, R115). -/
def Channel.reoffered (c : Channel) : List WbEntry :=
  c.patrol.held.filter (fun w => match c.migration with
    | some m => decide (w.loc ≠ .slot m.target)
    | none => true)

section
variable (c : Channel)

theorem Channel.restarted_idle (h : c.migration = none) : c.restarted = { c with
    exhausted := false, wbq := (offerHeld [] c.reoffered).1, demandCount := 0, capture := none, ceCount := 0, ueCount := 0
    patrol := { c.patrol.softReset with held := (offerHeld [] c.reoffered).2 } } := by
  have hheld : c.reoffered = c.patrol.held := by
    unfold Channel.reoffered
    rw [h]
    exact List.filter_true _
  unfold Channel.restarted Channel.abandon
  rw [h, hheld]
  rfl

theorem Channel.restarted_busy {m : Migration} (h : c.migration = some m) : c.restarted = { c with
    migration := none, slots := c.slots.set m.target.val .free, flights := markMoved m.target (markLate c.flights)
    exhausted := false, wbq := (offerHeld [] c.reoffered).1, demandCount := 0, capture := none, ceCount := 0, ueCount := 0
    patrol := { c.patrol.softReset with held := (offerHeld [] c.reoffered).2 } } := by
  have hheld : c.reoffered = c.patrol.held.filter (fun e => !(e.loc == .slot m.target)) := by
    unfold Channel.reoffered
    rw [h]
    refine List.filter_congr fun w _ => ?_
    by_cases hw : w.loc = .slot m.target <;> simp [hw]
  unfold Channel.restarted Channel.abandon
  rw [h, hheld]
  rfl

/-- Everything that SOFT_RESET does to a channel before the frame begins. -/
theorem Channel.restarted_spec (d : Channel) (hd : d = c.restarted) :
    (∀ i : SlotId, d.slots.get i = if c.migration.map (fun m => m.target) = some i then .free else c.slots.get i) ∧
      d.flights = (match c.migration with
        | some m => markMoved m.target (markLate c.flights)
        | none => c.flights) ∧
      PatrolOffers [] c.reoffered d.wbq d.patrol.held ∧
      d = { c with
        migration := none, slots := d.slots, flights := d.flights, exhausted := false, wbq := d.wbq, demandCount := 0
        capture := none, ceCount := 0, ueCount := 0
        patrol := { c.patrol.softReset with held := d.patrol.held } } := by
  subst hd
  cases hm : c.migration with
  | none =>
    rw [c.restarted_idle hm]
    refine ⟨fun i => rfl, rfl, patrolOffers _ _, ?_⟩
    rw [← hm]
  | some m =>
    rw [c.restarted_busy hm]
    refine ⟨fun i => ?_, rfl, patrolOffers _ _, rfl⟩
    simp only [SlotState.get_set, Option.map_some, Option.some.injEq, eq_comm (a := i)]

end

/-! ### The frame that begins (R138) -/

/-- Where no Patrol Engine waits for a pass start, a slot start sets its items and nothing more (R109, R134). -/
theorem State.slotStart_of_no_wait {s : State} (h : ∀ ch : ChanId, (s.chan ch).patrol.startWait = false) (slot : Nat) :
    s.slotStart slot = s.slotOpened slot := by
  have hopened : ∀ ch : ChanId, ((s.slotOpened slot).chan ch).patrol.startWait = false := fun ch => by
    rw [State.slotOpened_chan]
    exact h ch
  have hstays : ∀ ch : ChanId, (s.slotOpened slot).endWait ch = s.slotOpened slot := fun ch => by
    unfold State.endWait
    rw [hopened ch, Bool.false_and]
    rfl
  have hall : ∀ l : List ChanId, l.foldl State.endWait (s.slotOpened slot) = s.slotOpened slot := fun l => by
    induction l with
    | nil => rfl
    | cons c l ih => rw [List.foldl_cons, hstays, ih]
  rw [State.slotStart_eq, hall]

/-- The Cadence Unit after SOFT_RESET at a moment (R138). -/
def Cadence.restarted (c : Cadence) (now : Nat) (set : Settings) : Cadence :=
  { activeSource := c.activeSource, frameSlots := set.slotCount, slotIndex := some 0
    slotEnd := some (now + set.slotLen), activePhase := .closed, pendingPhase := none
    watchdogRef := if c.activeSource = .external then some now else c.watchdogRef }

theorem Channel.restarted_startWait (c : Channel) : c.restarted.patrol.startWait = false := by
  obtain ⟨-, -, -, hd⟩ := c.restarted_spec _ rfl
  rw [hd]
  rfl

/-- The state in which the frame of SOFT_RESET begins. -/
def State.beforeFrame (s : State) : State := { s with
  table := s.abandonAll.table, chans := (s.abandonAll.modAllChans Channel.softReset).chans
  cadence := { s.cadence.restarted s.now s.settings with
    slotIndex := s.cadence.slotIndex, slotEnd := s.cadence.slotEnd } }

theorem State.beforeFrame_chan (s : State) (ch : ChanId) : s.beforeFrame.chan ch = (s.chan ch).restarted := by
  have hchan : (s.abandonAll.modAllChans Channel.softReset).chan ch = (s.chan ch).restarted := by
    rw [State.chan_modAllChans, State.abandonAll_chan, Channel.restarted]
  exact hchan

theorem State.softReset_eq (s : State) : s.softReset = { s.beforeFrame.slotOpened 0 with causes := 0 } := by
  have hrestart : (s.abandonAll.modAllChans Channel.softReset).restartCadence = s.beforeFrame.slotStart 0 := by
    unfold State.beforeFrame
    rw [s.abandonAll_frame]
    rfl
  rw [State.softReset, hrestart, State.slotStart_of_no_wait fun ch => by
    rw [State.beforeFrame_chan, Channel.restarted_startWait]]

/-- Everything that SOFT_RESET changes before the selections, but what its channels restart with. -/
theorem State.softReset_frame (s : State) : s.softReset = { s with
    table := s.abandonAll.table, chans := s.softReset.chans, cadence := s.cadence.restarted s.now s.settings
    causes := 0 } := by
  rw [State.softReset_eq]
  rfl

theorem State.softReset_chan (s : State) (ch : ChanId) :
    s.softReset.chan ch = ((s.chan ch).restarted).withBudget (s.budgetOf ch .closed 0) := by
  have hqueue : (s.chan ch).restarted.queue = (s.chan ch).queue := by
    obtain ⟨-, -, -, hd⟩ := (s.chan ch).restarted_spec _ rfl
    rw [hd]
  have hbudget : s.beforeFrame.budgetOf ch .closed 0 = s.budgetOf ch .closed 0 := by
    rw [State.budgetOf, State.beforeFrame_chan, hqueue]
    rfl
  have hchan : s.softReset.chan ch = (s.beforeFrame.slotOpened 0).chan ch := by rw [State.softReset_eq]; rfl
  rw [hchan, State.slotOpened_chan, State.beforeFrame_chan, ← hbudget]
  rfl

/-! ### The selections that follow (R147, R165) -/

/-- Everything that the selections of several channels change. -/
theorem State.selectAll_spec {l : List ChanId} (u t : State) (ht : t = u.selectAll l) :
    { t with table := u.table, chans := u.chans, causes := u.causes } = u ∧
      (t.causes = u.causes ∨ t.causes = u.causes ||| Cause.spareExhausted.single) ∧
      t.table.map (fun r => r.key) = u.table.map (fun r => r.key) ∧ ∀ c, c ∉ l → t.chan c = u.chan c := by
  subst ht
  induction l generalizing u with
  | nil => exact ⟨rfl, .inl rfl, rfl, fun _ _ => rfl⟩
  | cons c l ih =>
    obtain ⟨hframe, hcauses, hkeys, hothers⟩ := ih (u.select c)
    obtain ⟨honly, hcause, -, -⟩ := u.select_spec c
    obtain ⟨hkey, -⟩ := u.select_table c
    refine ⟨?_, ?_, hkeys.trans hkey, fun d hd => ?_⟩
    · conv_rhs => rw [← honly.1]
      rw [← hframe]
      rfl
    · rcases hcauses with h | h <;> rcases hcause with k | k
      · exact .inl (h.trans k)
      · exact .inr (h.trans k)
      · exact .inr (h.trans (by rw [k]))
      · exact .inr (h.trans (by rw [k, BitVec.or_assoc, BitVec.or_self]))
    · obtain ⟨hne, hd⟩ := not_or.mp (mt List.mem_cons.mpr hd)
      exact (hothers d hd).trans (honly.2 d hne)

/-- A channel after the selections is as after a selection of its own. -/
theorem State.selectAll_chan {l : List ChanId} (hl : l.Nodup) (u : State) {ch : ChanId} (hch : ch ∈ l) :
    ∃ v : State, v.chan ch = u.chan ch ∧ (u.selectAll l).chan ch = (v.select ch).chan ch := by
  induction l generalizing u with
  | nil => cases hch
  | cons c l ih =>
    obtain ⟨hc, hl⟩ := List.nodup_cons.mp hl
    by_cases h : ch = c
    · subst h
      obtain ⟨-, -, -, hothers⟩ := State.selectAll_spec (l := l) (u.select ch) _ rfl
      exact ⟨u, rfl, hothers ch hc⟩
    · obtain ⟨honly, -⟩ := u.select_spec c
      obtain ⟨v, hv, ht⟩ := ih hl (u.select c) ((List.mem_cons.mp hch).resolve_left h)
      exact ⟨v, hv.trans (honly.2 ch h), ht⟩

/-! ### The command (R200) -/

/-- The state in which SOFT_RESET has been answered, before the selections (log entry 10). -/
def State.resetAnswered (s : State) (e : Nat) : State := s.softReset.withAnswer s e 0x0F .ok 0

section
variable {s t : State} {e : Nat}

theorem exec_softReset_ready (h : s.LinkReady) :
    exec (.softReset e) s = .next ((s.resetAnswered e).selectAll (List.finRange 4)) :=
  (exec_softReset ..).trans (State.answer_ready h e 0x0F softResetReply)

theorem State.resetAnswered_frame (s : State) (e : Nat) : s.resetAnswered e = { s with
    table := s.abandonAll.table, chans := (s.resetAnswered e).chans, cadence := s.cadence.restarted s.now s.settings
    causes := 0, response := { code := 0x0F, result := .ok, summary := 0, payload := 0 }, linkErrors := 0
    sdo := sdoBits s.response (192 + e) } := by
  have hframe := s.softReset_frame
  have hline : s.softReset.alertLine = false := by
    rw [hframe]
    simp [State.alertLine]
  have hsummary : summaryByte false 0 = 0 := by decide
  unfold State.resetAnswered State.withAnswer
  rw [hline, hsummary]
  generalize s.softReset = u at hframe ⊢
  conv_lhs => rw [hframe]

theorem State.resetAnswered_chan (s : State) (e : Nat) (ch : ChanId) :
    (s.resetAnswered e).chan ch = ((s.chan ch).restarted).withBudget (s.budgetOf ch .closed 0) :=
  (State.chan_withAnswer ..).trans (s.softReset_chan ch)

variable (ht : t = (s.resetAnswered e).selectAll (List.finRange 4))
include ht

/-- Everything that SOFT_RESET changes. -/
theorem State.afterSoftReset_frame : t = { s with
    table := t.table, chans := t.chans, causes := t.causes, cadence := s.cadence.restarted s.now s.settings
    response := { code := 0x0F, result := .ok, summary := 0, payload := 0 }, linkErrors := 0
    sdo := sdoBits s.response (192 + e) } := by
  obtain ⟨hframe, -⟩ := State.selectAll_spec _ t ht
  have hkept := hframe.trans (s.resetAnswered_frame e)
  exact congrArg (fun x : State => { x with table := t.table, chans := t.chans, causes := t.causes }) hkept

theorem State.afterSoftReset_chan (ch : ChanId) :
    (t.chan ch).flights =
      ((s.resetAnswered e).chan ch).flights.map (((s.resetAnswered e).chan ch).movedBy (t.chan ch)) ∧
    PatrolOffers [] (s.chan ch).reoffered (t.chan ch).wbq (t.chan ch).patrol.held ∧
    t.chan ch = { s.chan ch with
      migration := (t.chan ch).migration, slots := (t.chan ch).slots, flights := (t.chan ch).flights
      exhausted := (t.chan ch).exhausted, wbq := (t.chan ch).wbq, demandCount := 0, capture := none, ceCount := 0
      ueCount := 0, budget := s.budgetOf ch .closed 0
      patrol := { (s.chan ch).patrol.softReset with held := (t.chan ch).patrol.held } } := by
  obtain ⟨v, hv, hsel⟩ := State.selectAll_chan (List.nodup_finRange 4) (s.resetAnswered e) (List.mem_finRange ch)
  rw [← ht] at hsel
  obtain ⟨-, -, hkept, -⟩ := v.select_spec ch
  have hmoved := v.select_moved ch
  obtain ⟨-, -, hoffers, hd⟩ := (s.chan ch).restarted_spec _ rfl
  rw [← hsel, hv] at hkept hmoved
  rw [State.resetAnswered_chan] at hkept
  generalize (s.chan ch).restarted = d at hoffers hd hkept
  refine ⟨hmoved, ?_, ?_⟩
  · rw [hkept]
    exact hoffers
  · conv_lhs => rw [hkept, hd]
    rw [hkept]
    rfl

end

/-- Before the selections every channel stands without a migration and without SPARE_EXHAUSTED (R32, R165). -/
theorem State.resetAnswered_migrations (s : State) (e : Nat) (ch : ChanId) :
    ((s.resetAnswered e).chan ch).migration = none ∧ ((s.resetAnswered e).chan ch).exhausted = false ∧
      (∀ i : SlotId, ((s.resetAnswered e).chan ch).slots.get i =
        if (s.chan ch).migration.map (fun m => m.target) = some i then .free else (s.chan ch).slots.get i) ∧
      ((s.resetAnswered e).chan ch).flights = (match (s.chan ch).migration with
        | some m => markMoved m.target (markLate (s.chan ch).flights)
        | none => (s.chan ch).flights) := by
  obtain ⟨hslots, hflights, -, hd⟩ := (s.chan ch).restarted_spec _ rfl
  rw [State.resetAnswered_chan]
  exact ⟨congrArg Channel.migration hd, congrArg Channel.exhausted hd, hslots, hflights⟩

/-- Settles O19: the state answered, then what the four selections leave of it. -/
theorem softResetRestarts : Obligations.SoftResetRestarts := by
  intro s e hready
  obtain ⟨t, ht⟩ : ∃ t, t = (s.resetAnswered e).selectAll (List.finRange 4) := ⟨_, rfl⟩
  have hframe := State.afterSoftReset_frame ht
  obtain ⟨-, hcauses, hkeys, -⟩ := State.selectAll_spec _ t ht
  have htable : (s.resetAnswered e).table = s.abandonAll.table := by rw [State.resetAnswered_frame]
  have hzero : (s.resetAnswered e).causes = 0 := by rw [State.resetAnswered_frame]
  have hcadence : t.cadence = s.cadence.restarted s.now s.settings := by rw [hframe]
  have hselects : t = ((((s.resetAnswered e).select 0).select 1).select 2).select 3 := by
    rw [ht, show List.finRange 4 = [0, 1, 2, 3] from by decide]
    simp only [State.selectAll, List.foldl_cons, List.foldl_nil]
  have hexec : exec (.softReset e) s = .next t := by rw [ht, exec_softReset_ready hready]
  have hraised : t.causes = 0 ∨ t.causes = Cause.spareExhausted.single := by simpa [hzero] using hcauses
  rw [htable, State.abandonAll_keys] at hkeys
  refine ⟨t, s.resetAnswered e, hexec, hselects, hzero,
    fun hs => htable.trans hs.abandonAll_table, fun ch => ?migrations, by rw [hframe], by rw [hframe], by rw [hframe],
    by rw [hframe], by rw [hframe], by rw [hframe], hkeys, hraised, ?restarted⟩
  case migrations =>
    obtain ⟨hmigration, hexhausted, hslots, hflights⟩ := s.resetAnswered_migrations e ch
    exact ⟨hmigration, hexhausted, hslots, hflights, (State.afterSoftReset_chan ht ch).1⟩
  case restarted =>
    rw [hcadence]
    refine ⟨rfl, rfl, rfl, rfl, rfl, rfl, fun hext => if_pos hext, fun ch => ?_⟩
    obtain ⟨-, hoffers, hchan⟩ := State.afterSoftReset_chan ht ch
    rw [hchan]
    exact ⟨rfl, rfl, rfl, rfl, rfl, rfl, rfl, rfl, rfl, rfl, rfl, rfl, hoffers, rfl, rfl, rfl, rfl, rfl, rfl, rfl, rfl,
      rfl⟩

end Sys2Proof.Machine
end
